-- ==== Sys2Proof/Word.lean ====
section
/-! DEFINITION. The word types of the block: bytes, 16-bit addresses and counts, 32-bit transaction words (R6, R80). -/

namespace Sys2Proof

/-- A data value on the bus, a key code, a latch, a control value (R6). -/
abbrev Byte := BitVec 8

/-- The 16-bit address the router delivers (R81), and the width of `period` and `count` (R26, R27). -/
abbrev Half := BitVec 16

/-- A transaction word (R80). -/
abbrev Word := BitVec 32

end Sys2Proof
end

