-- ==== Sys2Proof/Config.lean ====
section
/-! DEFINITION. The parameters a model takes as an argument (R8), the inputs the environment of the block can give
(R180, R182), and the one free value: the environment's next input where the state lists none. -/

namespace Sys2Proof

/-- The two controllers a bus transaction can reach (R1, R81). -/
inductive BusUnit where
  | dkc
  | tic
  deriving DecidableEq, Repr

/-- The two address spaces of the external CPU that ROUTE speaks of (R63). -/
inductive Space where
  | memory
  | io
  deriving DecidableEq, Repr

/-- One line of ROUTE: the CPU addresses `lo` to `hi` of a space reach a controller (R63).
DESIGN CHOICE (log entry 5): ROUTE is a list of address ranges, so that it is plain data. -/
structure Route where
  space : Space
  lo : Nat
  hi : Nat
  unit : BusUnit
  deriving DecidableEq, Repr

/-- A range of the platform's address space: a supplied memory image, or a reserved region (R192). -/
structure Region where
  base : Nat
  size : Nat
  deriving DecidableEq, Repr

/-- The configuration record of R8: the OPEN parameters, and the platform's configuration that START checks (R192).
It stands in the state, where no transaction writes it (log entry 4). -/
structure Config where
  /-- DKC_BASE (R8): where the DKC's 512-address window lies. -/
  dkcBase : Half
  /-- CMD_FILL_DATA (R8, D5): OPEN. -/
  cmdFillData : Byte
  /-- SOE_MASK (R8, D15): OPEN. -/
  soeMask : Byte
  /-- DATA_LATCH_PORT (R8, D19): OPEN, default none. -/
  dataLatchPort : Option Byte
  /-- BANNER_ADDR[1..4] (R8, D23): OPEN. -/
  bannerAddr : Vector Byte 4
  /-- BANNER_DATA[1..2] (R8, D23): OPEN. -/
  bannerData : Vector Byte 2
  /-- BANNER_DELAY (R8, R185, D23), in seconds of the wall clock: OPEN. -/
  bannerDelay : Rat
  /-- ROUTE (R8, D4): OPEN. -/
  route : List Route
  /-- The size of the platform's address space (R192). -/
  spaceSize : Nat
  /-- The platform's reserved regions (R192). -/
  reserved : List Region
  /-- The memory images supplied for this boot (R192). -/
  images : List Region
  deriving DecidableEq, Repr

/-- One thing the CPU does inside its `step()` (R182): an access to an address of one of its spaces, which ROUTE may
send to a controller, a take, or the return of the step with its cycle count. -/
inductive CpuMove where
  | load (space : Space) (a : Half)
  | store (space : Space) (a : Half) (v : Byte)
  | takeNmi
  | takeInt
  | takeData
  | ret (cycles : Nat)
  deriving DecidableEq, Repr, Inhabited

/-- What the CPU collaborator answers when the driver task moves (R182): its next move, read while its `step()` runs,
and `isHalted`, read at the halt check. -/
structure CpuAnswer where
  move : CpuMove
  halted : Bool
  deriving DecidableEq, Repr, Inhabited

/-- A move of one of the two agents (R180), or of the wall clock. Bus transactions and driver operations, KIND 0 to 2,
come only from the driver task. -/
inductive AgentMove where
  /-- The host task presents the KIND 3 word of these fields (R82). -/
  | host (unit : BitVec 4) (op : Byte) (arg : Half)
  /-- The driver task takes its next step (R181), with the CPU's answer. -/
  | driver (a : CpuAnswer)
  /-- `num / (den + 1)` seconds of wall-clock time pass (R190; 93_implementation_defined.md row 2). -/
  | elapse (num den : Nat)
  deriving DecidableEq, Repr, Inhabited

/-- One input a state can list. -/
inductive Input where
  /-- The next transaction of a program given from outside, as 95_test_vectors.md section 3 gives one: a sequence of
  words in the order one agent issues them, from power-on (log entries 1 and 12). -/
  | word (w : Word)
  /-- A move of an agent. -/
  | agent (m : AgentMove)
  deriving DecidableEq, Repr, Inhabited

/-- FREE VALUE (log entry 2): the n-th move where the state lists no input. It has no body, so nothing can be proved of
it: which agent moves, what the CPU does and how time passes are any value (93_implementation_defined.md rows 2, 11, 13).
-/
opaque Config.environment : Nat → AgentMove

end Sys2Proof
end

