-- ==== Sys2Proof/Machine/Params.lean ====
section
/-! DEFINITION. The values of R8: the normative constants, the reference system's configuration, and the constraints on
the OPEN parameters. -/

namespace Sys2Proof

/-- CMD_FILL_ADDR (R8). -/
def cmdFillAddr : Byte := 0x90

/-- CTRL_IDLE (R8, D6). -/
def ctrlIdle : Byte := 0x00

/-- CLOCK_MEASURE_CYCLES (R8, D24). -/
def clockMeasureCycles : Nat := 10000

/-- DKC_DATA_OFF (R8, R61). -/
def dkcDataOff : BitVec 9 := 0x000

/-- DKC_CTRL_OFF (R8, R61). -/
def dkcCtrlOff : BitVec 9 := 0x100

/-- TIC_CMD_PORT (R8, R62). -/
def ticCmdPort : Byte := 0x20

/-- TIC_PLO_PORT (R8, R62). -/
def ticPloPort : Byte := 0x24

/-- TIC_PHI_PORT (R8, R62). -/
def ticPhiPort : Byte := 0x25

/-- TIC_SER_PORT (R8, R62). -/
def ticSerPort : Byte := 0xFF

/-- The reference routing of R63 for a DKC window at `base`: the window's 512 memory addresses reach the DKC, and every
I/O port reaches the TIC. PRESUMED (log entry 5): R63 marks the routing as general knowledge. -/
def referenceRoute (base : Half) : List Route :=
  [⟨.memory, base.toNat, base.toNat + 0x1FF, .dkc⟩, ⟨.io, 0x00, 0xFF, .tic⟩]

/-- The configuration at reset. PRESUMED (log entry 4): the OPEN parameters have the values R8 and R186 suggest.
DESIGN CHOICE (log entry 6): a 64K address space, nothing reserved, no image supplied. DESIGN CHOICE (log entry 13):
BANNER_DELAY, for which the spec suggests no value, is 0. -/
def Config.suggested : Config where
  dkcBase := 0x1800
  cmdFillData := 0x94
  soeMask := 0x40
  dataLatchPort := none
  bannerAddr := #v[0x76, 0x77, 0x38, 0xF8]
  bannerData := #v[0x07, 0x7D]
  bannerDelay := 0
  route := referenceRoute 0x1800
  spaceSize := 0x10000
  reserved := []
  images := []

/-- The eight bytes of one bit; SOE_MASK is one of them (R8). -/
def oneBitBytes : List Byte := [0x01, 0x02, 0x04, 0x08, 0x10, 0x20, 0x40, 0x80]

/-- The constraints of R8 on the parameters: DKC_BASE is a multiple of 0x200; the three command classes are distinct;
SOE_MASK is one bit and not bit 7. DESIGN CHOICE, no constraints of R8: every range routed to the DKC lies in its window,
with no mirrored one (log entry 23); DATA_LATCH_PORT is none of the four decoded ports (log entry 22). -/
def Config.valid (c : Config) : Bool :=
  c.dkcBase.toNat % 0x200 == 0
    && c.route.all (fun r => r.unit != .dkc || (c.dkcBase.toNat ≤ r.lo && r.hi ≤ c.dkcBase.toNat + 0x1FF))
    && c.cmdFillData != cmdFillAddr && c.cmdFillData != ctrlIdle && cmdFillAddr != ctrlIdle
    && oneBitBytes.contains c.soeMask && c.soeMask != 0x80
    && !(c.dataLatchPort.any fun p => [ticCmdPort, ticPloPort, ticPhiPort, ticSerPort].contains p)

/-- ROUTE (R63): which controller, if any, an access of the CPU reaches. -/
def Config.routeOf (c : Config) (sp : Space) (a : Half) : Option BusUnit :=
  (c.route.find? fun r => r.space == sp && r.lo ≤ a.toNat && a.toNat ≤ r.hi).map (·.unit)

/-- Two regions share an address. -/
def Region.overlaps (x y : Region) : Bool :=
  x.base < y.base + y.size && y.base < x.base + x.size && 0 < x.size && 0 < y.size

/-- The configuration START requires to be valid (R189, R192): every supplied image fits the address space and overlaps
no reserved region. -/
def Config.imagesFit (c : Config) : Bool :=
  c.images.all fun m => m.base + m.size ≤ c.spaceSize && !(c.reserved.any m.overlaps)

end Sys2Proof
end

