-- ==== Sys2Proof/Machine/Operands.lean ====
section
/-! DEFINITION. Operand assembly (R83) and the address decode of the two controllers (R61, R62). -/

namespace Sys2Proof

/-- What a DKC address selects (R61). -/
inductive DkcSel where
  | data
  | ctrl
  | none
  deriving DecidableEq, Repr

/-- What a TIC address selects (R62). -/
inductive TicSel where
  | cmd
  | plo
  | phi
  | ser
  | none
  deriving DecidableEq, Repr

/-- DKC decode (R61): `off = a[8:0]`. -/
def dkcSel (a : Half) : DkcSel :=
  if a.extractLsb' 0 9 = dkcDataOff then .data
  else if a.extractLsb' 0 9 = dkcCtrlOff then .ctrl
  else .none

/-- TIC decode (R62): `p = a[7:0]`; bits 15:8 take no part. -/
def ticSel (a : Half) : TicSel :=
  if a.extractLsb' 0 8 = ticCmdPort then .cmd
  else if a.extractLsb' 0 8 = ticPloPort then .plo
  else if a.extractLsb' 0 8 = ticPhiPort then .phi
  else if a.extractLsb' 0 8 = ticSerPort then .ser
  else .none

/-- The port an address names on the TIC: its low byte (R62). -/
def ticPort (a : Half) : Byte := a.extractLsb' 0 8

/-- The command field of a timer command byte: `TM = v[7:6]` (R120). -/
def timerCommand (v : Byte) : BitVec 2 := v.extractLsb' 6 2

/-- The output-enable test of a serial write: `v & SOE_MASK ≠ 0` (R162). -/
def serialEnabled (soe v : Byte) : Bool := v &&& soe != 0#8

/-- The half-byte exchange `swap4(v) = ((v << 4) | (v >> 4)) & 0xFF` (R11). -/
def swap4 (v : Byte) : Byte := (v <<< 4) ||| (v >>> 4)

/-- The glyph transform `~swap4(v) & 0xFF` (R100). -/
def glyph (v : Byte) : Byte := ~~~(swap4 v)

/-- A period with its low byte replaced: `(period & 0xFF00) | v` (R125). -/
def periodWithLow (p : Half) (v : Byte) : Half := (p &&& 0xFF00#16) ||| v.setWidth 16

/-- A period with bits 13:8 replaced: `(period & 0x00FF) | ((v & 0x3F) << 8)`, computed at 16 bits (R126). -/
def periodWithHigh (p : Half) (v : Byte) : Half := (p &&& 0x00FF#16) ||| ((v &&& 0x3F#8).setWidth 16 <<< 8)

/-- The output accumulator after one enabled write: `((outputByte | (~v & 0x80)) >> 1) & 0xFF` (R162). -/
def serialShiftOut (ob v : Byte) : Byte := (ob ||| (~~~v &&& 0x80#8)) >>> 1

/-- The bit a shifting serial read returns, in place at bit 7:
`((zext16(inputByte) << 8) >> k) & 0x80`, shifted at 16 bits (R161, D16). -/
def serialShiftIn (ib : Byte) (k : Nat) : Byte := (((ib.setWidth 16 <<< 8) >>> k) &&& 0x80#16).setWidth 8

end Sys2Proof
end

