-- ==== Sys2Proof/Syntax.lean ====
section
/-! DEFINITION. The 35 transactions of the block (R85), one constructor per row of spec/opcode_table.json. -/

namespace Sys2Proof

/-- A transaction. A bus transaction keeps the whole 16-bit address the router delivers (R81), and a bus write the byte
written; a driver or host operation keeps the argument R82 gives it. -/
inductive Instr where
  | dkcRdKey (a : Half)
  | dkcRdStatus (a : Half)
  | dkcRdNone (a : Half)
  | dkcWrDisp (a : Half) (v : Byte)
  | dkcWrCtrl (a : Half) (v : Byte)
  | dkcWrNone (a : Half) (v : Byte)
  | ticWrCmdNop (a : Half) (v : Byte)
  | ticWrCmdAbort (a : Half) (v : Byte)
  | ticWrCmdPend (a : Half) (v : Byte)
  | ticWrCmdStart (a : Half) (v : Byte)
  | ticWrPlo (a : Half) (v : Byte)
  | ticWrPhi (a : Half) (v : Byte)
  | ticWrSerOn (a : Half) (v : Byte)
  | ticWrSerOff (a : Half) (v : Byte)
  | ticWrNone (a : Half) (v : Byte)
  | ticRdSer (a : Half)
  | ticRdNone (a : Half)
  | ticTick (n : Half)
  | ticTakeNmi
  | ticTakeInt
  | ticTakeReset
  | ticTakeData
  | ticSetNmi
  | dkcBanner
  | dkcKeyEnq (b : Byte)
  | ticSetSid (b : Byte)
  | ticSetInt
  | ticSetData (b : Byte)
  | ticReqReset
  | dkcReset
  | ticReset
  | dkcPowerOn
  | ticPowerOn
  | drvCancel
  | drvStart
  deriving DecidableEq, Repr

end Sys2Proof
end

