-- ==== Sys2Proof/WellFormed.lean ====
section
/-! DEFINITION. Which transactions have a word: the selecting fields of R85 hold of the operands. -/

namespace Sys2Proof

/-- The selecting fields of the instruction's row of R85, for the output-enable mask `soe`. -/
def Instr.wf (soe : Byte) : Instr → Bool
  | .dkcRdKey a => dkcSel a == .data
  | .dkcRdStatus a => dkcSel a == .ctrl
  | .dkcRdNone a => dkcSel a == .none
  | .dkcWrDisp a _ => dkcSel a == .data
  | .dkcWrCtrl a _ => dkcSel a == .ctrl
  | .dkcWrNone a _ => dkcSel a == .none
  | .ticWrCmdNop a v => ticSel a == .cmd && timerCommand v == 0
  | .ticWrCmdAbort a v => ticSel a == .cmd && timerCommand v == 1
  | .ticWrCmdPend a v => ticSel a == .cmd && timerCommand v == 2
  | .ticWrCmdStart a v => ticSel a == .cmd && timerCommand v == 3
  | .ticWrPlo a _ => ticSel a == .plo
  | .ticWrPhi a _ => ticSel a == .phi
  | .ticWrSerOn a v => ticSel a == .ser && serialEnabled soe v
  | .ticWrSerOff a v => ticSel a == .ser && !serialEnabled soe v
  | .ticWrNone a _ => ticSel a == .none
  | .ticRdSer a => ticSel a == .ser
  | .ticRdNone a => ticSel a != .ser
  | .ticTick _ => true
  | .ticTakeNmi => true
  | .ticTakeInt => true
  | .ticTakeReset => true
  | .ticTakeData => true
  | .ticSetNmi => true
  | .dkcBanner => true
  | .dkcKeyEnq _ => true
  | .ticSetSid _ => true
  | .ticSetInt => true
  | .ticSetData _ => true
  | .ticReqReset => true
  | .dkcReset => true
  | .ticReset => true
  | .dkcPowerOn => true
  | .ticPowerOn => true
  | .drvCancel => true
  | .drvStart => true

end Sys2Proof
end

