-- ==== Sys2Proof/Decode.lean ====
section
/-! DEFINITION. The decoder of transaction words (R80-R86), total, refusing every reserved word by name (R88), and the
encoder. -/

namespace Sys2Proof

/-- Why a word is reserved (R88). -/
inductive DecodeError where
  /-- KIND 0x4-0xF (R86 step 1). -/
  | reservedKind
  /-- UNIT 0x3-0xF, or UNIT 0x2 in format B (R86 steps 2 and 5). -/
  | reservedUnit
  /-- A bus read whose DATA is not 0x00 (R86 step 3). -/
  | readDataNotZero
  /-- An OP that is not in the table, or not under this KIND and UNIT (R86 step 5). -/
  | noSuchOp
  /-- A must-be-zero bit of ARG is set (R86 step 5). -/
  | argNotZero
  deriving DecidableEq, Repr

/-- KIND, bits 31:28 (R80). -/
def wordKind (w : Word) : BitVec 4 := w.extractLsb' 28 4

/-- UNIT, bits 27:24 (R80). -/
def wordUnit (w : Word) : BitVec 4 := w.extractLsb' 24 4

/-- ADDR, bits 23:8 of format B (R81). -/
def wordAddr (w : Word) : Half := w.extractLsb' 8 16

/-- DATA, bits 7:0 of format B (R81). -/
def wordData (w : Word) : Byte := w.extractLsb' 0 8

/-- OP, bits 23:16 of format O (R82). -/
def wordOp (w : Word) : Byte := w.extractLsb' 16 8

/-- ARG, bits 15:0 of format O (R82). -/
def wordArg (w : Word) : Half := w.extractLsb' 0 16

/-- The DKC's read rows (R85). -/
def decodeDkcRead (a : Half) : Instr :=
  match dkcSel a with
  | .data => .dkcRdKey a
  | .ctrl => .dkcRdStatus a
  | .none => .dkcRdNone a

/-- The DKC's write rows (R85). -/
def decodeDkcWrite (a : Half) (v : Byte) : Instr :=
  match dkcSel a with
  | .data => .dkcWrDisp a v
  | .ctrl => .dkcWrCtrl a v
  | .none => .dkcWrNone a v

/-- The TIC's read rows (R85): every port but the serial one reads as NONE (R129). -/
def decodeTicRead (a : Half) : Instr :=
  match ticSel a with
  | .ser => .ticRdSer a
  | .cmd => .ticRdNone a
  | .plo => .ticRdNone a
  | .phi => .ticRdNone a
  | .none => .ticRdNone a

/-- The four rows of a timer command, by `TM` (R120). -/
def decodeTimerCommand (a : Half) (v : Byte) : Instr :=
  if timerCommand v = 0 then .ticWrCmdNop a v
  else if timerCommand v = 1 then .ticWrCmdAbort a v
  else if timerCommand v = 2 then .ticWrCmdPend a v
  else .ticWrCmdStart a v

/-- The TIC's write rows (R85). -/
def decodeTicWrite (soe : Byte) (a : Half) (v : Byte) : Instr :=
  match ticSel a with
  | .cmd => decodeTimerCommand a v
  | .plo => .ticWrPlo a v
  | .phi => .ticWrPhi a v
  | .ser => if serialEnabled soe v then .ticWrSerOn a v else .ticWrSerOff a v
  | .none => .ticWrNone a v

/-- The bus read of a unit at an address (R13). -/
def busRead (u : BusUnit) (a : Half) : Instr :=
  match u with
  | .dkc => decodeDkcRead a
  | .tic => decodeTicRead a

/-- The bus write of a byte to a unit at an address (R13). -/
def busWrite (soe : Byte) (u : BusUnit) (a : Half) (v : Byte) : Instr :=
  match u with
  | .dkc => decodeDkcWrite a v
  | .tic => decodeTicWrite soe a v

/-- The UNIT field of a bus transaction (R81). -/
def busUnitOf (u : BitVec 4) : Except DecodeError BusUnit :=
  if u = 0 then .ok .dkc else if u = 1 then .ok .tic else .error .reservedUnit

/-- An operation whose ARG must be zero (R82). -/
def withZeroArg (arg : Half) (i : Instr) : Except DecodeError Instr :=
  if arg = 0 then .ok i else .error .argNotZero

/-- An operation whose ARG holds a byte, with ARG[15:8] = 0 (R82). -/
def withByteArg (arg : Half) (mk : Byte → Instr) : Except DecodeError Instr :=
  if arg.extractLsb' 8 8 = 0 then .ok (mk (arg.extractLsb' 0 8)) else .error .argNotZero

/-- The driver operations, KIND 0x2 (R85). -/
def decodeDriverOp (unit : BitVec 4) (op : Byte) (arg : Half) : Except DecodeError Instr :=
  if unit = 0 then
    if op = 0x06 then withZeroArg arg .dkcBanner
    else .error .noSuchOp
  else if unit = 1 then
    if op = 0x00 then .ok (.ticTick arg)
    else if op = 0x01 then withZeroArg arg .ticTakeNmi
    else if op = 0x02 then withZeroArg arg .ticTakeInt
    else if op = 0x03 then withZeroArg arg .ticTakeReset
    else if op = 0x04 then withZeroArg arg .ticTakeData
    else if op = 0x05 then withZeroArg arg .ticSetNmi
    else .error .noSuchOp
  else if unit = 2 then .error .noSuchOp
  else .error .reservedUnit

/-- The host operations, KIND 0x3 (R85). -/
def decodeHostOp (unit : BitVec 4) (op : Byte) (arg : Half) : Except DecodeError Instr :=
  if unit = 0 then
    if op = 0x10 then withByteArg arg .dkcKeyEnq
    else if op = 0x20 then withZeroArg arg .dkcReset
    else if op = 0x21 then withZeroArg arg .dkcPowerOn
    else .error .noSuchOp
  else if unit = 1 then
    if op = 0x11 then withByteArg arg .ticSetSid
    else if op = 0x12 then withZeroArg arg .ticSetInt
    else if op = 0x13 then withByteArg arg .ticSetData
    else if op = 0x14 then withZeroArg arg .ticReqReset
    else if op = 0x20 then withZeroArg arg .ticReset
    else if op = 0x21 then withZeroArg arg .ticPowerOn
    else .error .noSuchOp
  else if unit = 2 then
    if op = 0x30 then withZeroArg arg .drvCancel
    else if op = 0x31 then withZeroArg arg .drvStart
    else .error .noSuchOp
  else .error .reservedUnit

/-- A bus read word (R86 steps 2-4). -/
def decodeBusRead (unit : BitVec 4) (a : Half) (data : Byte) : Except DecodeError Instr :=
  match busUnitOf unit with
  | .error e => .error e
  | .ok u => if data = 0 then .ok (busRead u a) else .error .readDataNotZero

/-- A bus write word (R86 steps 2 and 4). -/
def decodeBusWrite (soe : Byte) (unit : BitVec 4) (a : Half) (v : Byte) : Except DecodeError Instr :=
  match busUnitOf unit with
  | .error e => .error e
  | .ok u => .ok (busWrite soe u a v)

/-- The decode procedure of R86, total on every word. `soe` is SOE_MASK (R89). -/
def decode (soe : Byte) (w : Word) : Except DecodeError Instr :=
  if wordKind w = 0 then decodeBusRead (wordUnit w) (wordAddr w) (wordData w)
  else if wordKind w = 1 then decodeBusWrite soe (wordUnit w) (wordAddr w) (wordData w)
  else if wordKind w = 2 then decodeDriverOp (wordUnit w) (wordOp w) (wordArg w)
  else if wordKind w = 3 then decodeHostOp (wordUnit w) (wordOp w) (wordArg w)
  else .error .reservedKind

/-- A format B word (R81). -/
def busWord (kind unit : BitVec 4) (a : Half) (v : Byte) : Word := kind ++ unit ++ a ++ v

/-- A format O word (R82). -/
def opWord (kind unit : BitVec 4) (op : Byte) (arg : Half) : Word := kind ++ unit ++ op ++ arg

/-- The word of a transaction (R81, R82, R85). -/
def encode : Instr → Word
  | .dkcRdKey a => busWord 0 0 a 0
  | .dkcRdStatus a => busWord 0 0 a 0
  | .dkcRdNone a => busWord 0 0 a 0
  | .dkcWrDisp a v => busWord 1 0 a v
  | .dkcWrCtrl a v => busWord 1 0 a v
  | .dkcWrNone a v => busWord 1 0 a v
  | .ticWrCmdNop a v => busWord 1 1 a v
  | .ticWrCmdAbort a v => busWord 1 1 a v
  | .ticWrCmdPend a v => busWord 1 1 a v
  | .ticWrCmdStart a v => busWord 1 1 a v
  | .ticWrPlo a v => busWord 1 1 a v
  | .ticWrPhi a v => busWord 1 1 a v
  | .ticWrSerOn a v => busWord 1 1 a v
  | .ticWrSerOff a v => busWord 1 1 a v
  | .ticWrNone a v => busWord 1 1 a v
  | .ticRdSer a => busWord 0 1 a 0
  | .ticRdNone a => busWord 0 1 a 0
  | .ticTick n => opWord 2 1 0x00 n
  | .ticTakeNmi => opWord 2 1 0x01 0
  | .ticTakeInt => opWord 2 1 0x02 0
  | .ticTakeReset => opWord 2 1 0x03 0
  | .ticTakeData => opWord 2 1 0x04 0
  | .ticSetNmi => opWord 2 1 0x05 0
  | .dkcBanner => opWord 2 0 0x06 0
  | .dkcKeyEnq b => opWord 3 0 0x10 (b.setWidth 16)
  | .ticSetSid b => opWord 3 1 0x11 (b.setWidth 16)
  | .ticSetInt => opWord 3 1 0x12 0
  | .ticSetData b => opWord 3 1 0x13 (b.setWidth 16)
  | .ticReqReset => opWord 3 1 0x14 0
  | .dkcReset => opWord 3 0 0x20 0
  | .ticReset => opWord 3 1 0x20 0
  | .dkcPowerOn => opWord 3 0 0x21 0
  | .ticPowerOn => opWord 3 1 0x21 0
  | .drvCancel => opWord 3 2 0x30 0
  | .drvStart => opWord 3 2 0x31 0

/-- What the decoder reads from the word `w` of `nbits` bits, with SOE_MASK at the value the table's match and mask are
shown for (R85). Every row has 32 bits, one word, and no byte order (R65, R89). -/
def decodeTableWord (nbits w : Nat) : Option Instr :=
  (decode Config.suggested.soeMask (BitVec.ofNat 32 (w % 2 ^ nbits))).toOption

end Sys2Proof
end

