-- ==== Sys2Proof/Machine/State.lean ====
section
/-! DEFINITION. The state of the block and of the execution driver (10_state.md, 44_driver_host.md), its reset, and the
reasons a step can stop. All of it is plain data. -/

namespace Sys2Proof.Machine

/-- The timer's four states (R28). -/
inductive TimerState where
  | started
  | pending
  | stopped
  | abort
  deriving DecidableEq, Repr

/-- The driver's three states (R39). -/
inductive DriverState where
  | running
  | halted
  | cancelled
  deriving DecidableEq, Repr

/-- The two groups of display latches (R108). -/
inductive Field where
  | addr
  | data
  deriving DecidableEq, Repr

/-- An output event of the block (R191). -/
inductive Event where
  /-- A latch slot was written (R108); the index is 1-based. -/
  | latchWrite (field : Field) (index : Nat) (glyph : Byte)
  /-- A character was appended to the transcript (R162). -/
  | serialChar (c : Byte)
  /-- A clock-rate estimate was published (R190). -/
  | clockRate (hz : Rat)
  /-- The halted notification (R185). -/
  | halted
  deriving DecidableEq, Repr

/-- What a transaction returns (R13, R127, R140). -/
inductive Returned where
  | nothing
  | byte (v : Byte)
  | flag (b : Bool)
  deriving DecidableEq, Repr

/-- Where the driver task stands: the numbered steps of one iteration (R181), with the iteration's locals `cycles` and
`elapsed` (R42), and the halt exit (R185). Each is one indivisible step of the driver task, between any two of which the
host may act (R180; log entry 18). -/
inductive Position where
  /-- The task has ended, or was never started. -/
  | terminated
  /-- Step 1 begins: the CPU polls the NMI latch (R182). -/
  | cpuEntry
  /-- Step 1: inside `CPU.step()`. -/
  | cpuBody
  /-- Step 2: the cycles are accumulated. -/
  | account (cycles : Nat)
  /-- Step 3: the timer is ticked. -/
  | tick (cycles : Nat)
  /-- Step 4: NMI is raised if the tick elapsed. -/
  | raiseNmi (elapsed : Bool)
  /-- Step 5: the reset request is taken. -/
  | takeReset
  /-- Step 6: the halted flag is read. -/
  | checkHalt
  /-- Halt exit: the banner delay, begun when the wall clock read `since`. -/
  | haltWait (since : Rat)
  /-- Halt exit: the banner. -/
  | haltBanner
  /-- Halt exit: the halted notification. -/
  | haltNotify
  /-- Step 7: the cancellation token is read. -/
  | checkCancel
  /-- Step 8: the clock-rate measurement. -/
  | measure
  deriving DecidableEq, Repr

/-- The Display/Keyboard Controller (R20-R24). Latch slot i of R23 and R24 is element i - 1. -/
structure Dkc where
  /-- R20, oldest code first. -/
  keyq : List Byte
  /-- R21. -/
  ctrl : Byte
  /-- R22: unbounded, never wraps. -/
  fseq : Nat
  /-- R23. -/
  addr : Vector Byte 4
  /-- R24. -/
  data : Vector Byte 2
  deriving DecidableEq, Repr

/-- The Timer/Interrupt/Serial Controller (R26-R38). -/
structure Tic where
  /-- R26. -/
  period : Half
  /-- R27. -/
  count : Half
  /-- R28. -/
  tstate : TimerState
  /-- R29: NMI-pending. -/
  nmi : Bool
  /-- R30: INT-pending. -/
  intr : Bool
  /-- R31: reset-requested. -/
  rstreq : Bool
  /-- R32: interrupt-vector data. -/
  vdata : Byte
  /-- R33: the SID byte. -/
  inputByte : Byte
  /-- R34: 0 to 7. -/
  inputBitsConsumed : Fin 8
  /-- R35. -/
  ttyConnected : Bool
  /-- R36: the output accumulator. -/
  outputByte : Byte
  /-- R37: 0 to 7. -/
  outputBitsAssembled : Fin 8
  /-- R38: oldest character first. -/
  transcript : List Byte
  deriving DecidableEq, Repr

/-- The execution driver (R39-R41, R189). -/
structure Driver where
  /-- R39. -/
  dstate : DriverState
  /-- R40: the cancellation token. -/
  cancelReq : Bool
  /-- R41. -/
  cumCycles : Nat
  /-- R41. -/
  sinceMeasure : Nat
  /-- R41: absent, or the last estimate. -/
  clockRateHz : Option Rat
  /-- R189: the wall clock at the last START, in seconds. -/
  startTime : Rat
  /-- Where the task stands in R181 and R185. -/
  pos : Position
  /-- The model's own (log entry 11): how often `CPU.reset()` was called (R184). -/
  cpuResets : Nat
  deriving DecidableEq, Repr

/-- The machine: the block (`dkc`, `tic`), the driver, the output history, and the parameters it runs under; then the
model's own fields, which the spec does not name. -/
structure State where
  dkc : Dkc
  tic : Tic
  drv : Driver
  /-- The output-event history, oldest first (R14, R191); empty at power-on, the model's choice (log entry 24). -/
  events : List Event
  /-- R8; no transaction writes it. -/
  cfg : Config
  /-- The model's own (log entry 3): what the latest transaction that returns a value returned. -/
  ret : Returned
  /-- The model's own (log entry 1): the next inputs. The head is the one the next step takes. -/
  inbox : List Input
  /-- The model's own (log entry 2): how many moves were drawn from `Config.environment`. -/
  draws : Nat
  /-- The model's own (log entry 7): what `now()` reads (R189, R190), in seconds. -/
  clock : Rat
  deriving DecidableEq, Repr

/-- The block raises no exception and no transaction it admits can fault (R200), so there is no reason to fault. Safe:
no claim can be proved of a fault, and a step answers a next state or a refusal. -/
inductive Fault where
  deriving DecidableEq, Repr

/-- The reasons for which the model gives a step no meaning (R14): the refusal mark of the run. -/
inductive Refusal where
  /-- An instruction without a meaning: raised by no arm of `exec`. Safe. -/
  | notModelled (mnemonic : String)
  /-- A reserved transaction word (R88): raised by the step that is given one. Safe. -/
  | reservedWord (why : DecodeError)
  /-- A host operation issued while the driver runs, which R193 does not admit (R189, R235, D31): raised by DKC.RESET,
  TIC.RESET, DKC.POWER_ON, TIC.POWER_ON and DRV.START. Safe. -/
  | driverNotStopped
  /-- The configuration error (R192): raised by DRV.START. Safe. -/
  | configurationError
  deriving DecidableEq, Repr

/-- A freshly constructed DKC (R222). -/
def Dkc.powerOn : Dkc where
  keyq := []
  ctrl := ctrlIdle
  fseq := 1
  addr := #v[0x00, 0x00, 0x00, 0x00]
  data := #v[0x00, 0x00]

/-- A freshly constructed TIC (R223). -/
def Tic.powerOn : Tic where
  period := 0x0000
  count := 0x0000
  tstate := .abort
  nmi := false
  intr := false
  rstreq := false
  vdata := 0x00
  inputByte := 0x00
  inputBitsConsumed := 0
  ttyConnected := false
  outputByte := 0x00
  outputBitsAssembled := 0
  transcript := []

/-- The driver at power-on (R39, R40). DESIGN CHOICE (log entry 8): the fields of R41 and R189 as START leaves them. -/
def Driver.powerOn : Driver where
  dstate := .cancelled
  cancelReq := false
  cumCycles := 0
  sinceMeasure := 0
  clockRateHz := none
  startTime := 0
  pos := .terminated
  cpuResets := 0

/-- The machine right after power-on (10_state.md section 8), under the reference configuration, with no input listed. The
table gives the output history no value: that it is empty is the model's choice (DESIGN CHOICE, log entry 24). -/
def State.reset : State where
  dkc := Dkc.powerOn
  tic := Tic.powerOn
  drv := Driver.powerOn
  events := []
  cfg := Config.suggested
  ret := .nothing
  inbox := []
  draws := 0
  clock := 0

/-- The state with another DKC. -/
def State.withDkc (s : State) (d : Dkc) : State := { s with dkc := d }

/-- The state with another TIC. -/
def State.withTic (s : State) (t : Tic) : State := { s with tic := t }

/-- The state with another driver. -/
def State.withDrv (s : State) (d : Driver) : State := { s with drv := d }

/-- The state after a transaction returned `r` (R13). -/
def State.returning (s : State) (r : Returned) : State := { s with ret := r }

/-- `emit(e)` (R14): the event is appended to the output history. -/
def State.emit (s : State) (e : Event) : State := { s with events := s.events ++ [e] }

/-- The driver task at another position. -/
def State.goto (s : State) (p : Position) : State := { s with drv := { s.drv with pos := p } }

end Sys2Proof.Machine
end

