-- ==== Sys2Proof/Machine/Flags.lean ====
section
/-! DEFINITION. The block's flags (R45): the read-clear latches and the connect edge of the serial line. -/

namespace Sys2Proof.Machine

/-- The NMI latch set to `b`. -/
def Tic.withNmi (t : Tic) (b : Bool) : Tic := { t with nmi := b }

/-- The INT latch set to `b`. -/
def Tic.withIntr (t : Tic) (b : Bool) : Tic := { t with intr := b }

/-- The reset-request latch set to `b`. -/
def Tic.withRstreq (t : Tic) (b : Bool) : Tic := { t with rstreq := b }

/-- The interrupt-vector-data latch set to `v`. -/
def Tic.withVdata (t : Tic) (v : Byte) : Tic := { t with vdata := v }

/-- Bit 7 of `inputByte` (R160). -/
def Tic.inputTop (t : Tic) : Bool := t.inputByte.getLsbD 7

/-- The connect-edge condition (R160): `ttyConnected` equals `inputByte[7]`. -/
def Tic.edge (t : Tic) : Bool := t.ttyConnected == t.inputTop

/-- Raising NMI (R144, R183): the latch is set, and stays set if it was. -/
def raiseNmi (s : State) : State := s.withTic (s.tic.withNmi true)

/-- Taking NMI (R140): the latch is returned and cleared in one step. -/
def takeNmi (s : State) : State := (s.withTic (s.tic.withNmi false)).returning (.flag s.tic.nmi)

/-- Taking INT (R141). -/
def takeIntr (s : State) : State := (s.withTic (s.tic.withIntr false)).returning (.flag s.tic.intr)

/-- Taking the reset request (R142). -/
def takeReset (s : State) : State := (s.withTic (s.tic.withRstreq false)).returning (.flag s.tic.rstreq)

/-- Taking the interrupt-vector data (R143): a cleared byte is 0x00. -/
def takeVdata (s : State) : State := (s.withTic (s.tic.withVdata 0x00)).returning (.byte s.tic.vdata)

end Sys2Proof.Machine
end

