-- ==== Sys2Proof/Machine/Ops.lean ====
section
/-! DEFINITION. The named operations on the state that the meanings share: the key queue, the latch writes with their
events, the timer's decrement, the serial shifts, the resets, and the admission of host operations. -/

namespace Sys2Proof.Machine

/-- Writing an address-field slot, element `i` (R23), publishes it (R108). -/
def writeAddrLatch (i : Fin 4) (g : Byte) (s : State) : State :=
  (s.withDkc { s.dkc with addr := s.dkc.addr.set i g }).emit (.latchWrite .addr (i + 1) g)

/-- Writing a data-field slot, element `i` (R24), publishes it (R108). -/
def writeDataLatch (i : Fin 2) (g : Byte) (s : State) : State :=
  (s.withDkc { s.dkc with data := s.dkc.data.set i g }).emit (.latchWrite .data (i + 1) g)

/-- The field-sequence counter after a qualifying data write (R22). -/
def advanceFseq (s : State) : State := s.withDkc { s.dkc with fseq := s.dkc.fseq + 1 }

/-- A data write while CMD_FILL_ADDR is active (R104): slots 1 to 4, and the counter advances in any case. -/
def fillAddr (v : Byte) (s : State) : State :=
  advanceFseq <|
    if h : 1 ≤ s.dkc.fseq ∧ s.dkc.fseq ≤ 4 then writeAddrLatch ⟨s.dkc.fseq - 1, by omega⟩ (glyph v) s else s

/-- A data write while CMD_FILL_DATA is active (R104): slots 1 and 2, and the counter advances in any case. -/
def fillData (v : Byte) (s : State) : State :=
  advanceFseq <|
    if h : 1 ≤ s.dkc.fseq ∧ s.dkc.fseq ≤ 2 then writeDataLatch ⟨s.dkc.fseq - 1, by omega⟩ (glyph v) s else s

/-- A write of the data register (R104). -/
def displayWrite (v : Byte) (s : State) : State :=
  if s.dkc.ctrl = cmdFillAddr then fillAddr v s
  else if s.dkc.ctrl = s.cfg.cmdFillData then fillData v s
  else s

/-- A write of the control register (R105). -/
def controlWrite (v : Byte) (s : State) : State := s.withDkc { s.dkc with ctrl := v, fseq := 1 }

/-- A read of the data register (R101): the oldest code is removed and returned, or 0x00 for an empty queue. -/
def dequeueKey (s : State) : State :=
  match s.dkc.keyq with
  | [] => s.returning (.byte 0x00)
  | k :: q => (s.withDkc { s.dkc with keyq := q }).returning (.byte k)

/-- The host's key enqueue (R107). -/
def enqueueKey (b : Byte) (s : State) : State := s.withDkc { s.dkc with keyq := s.dkc.keyq ++ [b] }

/-- A NONE read (R64). -/
def readZero (s : State) : State := s.returning (.byte 0x00)

/-- The idle banner (R186): the six latches, in order, each published. -/
def writeBanner (s : State) : State :=
  s |> writeAddrLatch 0 s.cfg.bannerAddr[0] |> writeAddrLatch 1 s.cfg.bannerAddr[1]
    |> writeAddrLatch 2 s.cfg.bannerAddr[2] |> writeAddrLatch 3 s.cfg.bannerAddr[3]
    |> writeDataLatch 0 s.cfg.bannerData[0] |> writeDataLatch 1 s.cfg.bannerData[1]

/-- The timer state a command selects; START also reloads the count (R122-R124). -/
def Tic.withTstate (t : Tic) (x : TimerState) : Tic := { t with tstate := x }

/-- The count reloaded from the period (R124). -/
def Tic.reload (t : Tic) : Tic := { t with count := t.period }

/-- The unit that exhausts the count (R127): reload in `started`; stop with count 0 otherwise. -/
def Tic.exhaust (t : Tic) : Tic :=
  if t.tstate = .started then t.reload else { t with count := 0, tstate := .stopped }

/-- The loop of R127 over `n` units, for a running timer: (elapsed, the timer after). It ends at the first unit that
exhausts the count, one applied while `count ≤ 1`. -/
def Tic.countDown : Nat → Tic → Bool × Tic
  | 0, t => (false, t)
  | n + 1, t =>
    if t.count.toNat ≤ 1 then (true, t.exhaust) else Tic.countDown n { t with count := t.count - 1 }

/-- TICK on the timer (R127): only `started` and `pending` count. -/
def Tic.tick (n : Nat) (t : Tic) : Bool × Tic :=
  match t.tstate with
  | .started => t.countDown n
  | .pending => t.countDown n
  | .stopped => (false, t)
  | .abort => (false, t)

/-- TICK as a transaction (R127): it returns `elapsed`. `n` is any natural number (R84). -/
def tickTimer (n : Nat) (s : State) : State :=
  (s.withTic (s.tic.tick n).2).returning (.flag (s.tic.tick n).1)

/-- One bit of a shifting serial read (R161), with the counter's return to 0 at the eighth. -/
def Tic.shiftIn (t : Tic) : Tic :=
  if t.inputBitsConsumed.val + 1 = 8 then
    { t with inputByte := t.inputByte ||| 0x80#8, inputBitsConsumed := 0 }
  else { t with inputBitsConsumed := t.inputBitsConsumed + 1 }

/-- A read of the serial port (R161): the connect edge, the idle line, or one shifted bit. -/
def serialRead (s : State) : State :=
  if s.tic.edge then
    (s.withTic { s.tic with ttyConnected := !s.tic.ttyConnected }).returning (.byte 0x00)
  else if s.tic.inputTop then s.returning (.byte 0x80)
  else (s.withTic s.tic.shiftIn).returning (.byte (serialShiftIn s.tic.inputByte s.tic.inputBitsConsumed))

/-- A write of the serial port with the output-enable bit set (R162): one inverted bit is shifted in, and the eighth
appends the character. -/
def serialWrite (v : Byte) (s : State) : State :=
  let c := serialShiftOut s.tic.outputByte v
  if s.tic.outputBitsAssembled.val + 1 = 8 then
    (s.withTic { s.tic with
      outputByte := c, outputBitsAssembled := 0, transcript := s.tic.transcript ++ [c] }).emit (.serialChar c)
  else s.withTic { s.tic with outputByte := c, outputBitsAssembled := s.tic.outputBitsAssembled + 1 }

/-- A write of a TIC port with no register (R130). DEDUCED (log entry 9): where a DATA_LATCH_PORT is configured, a
write of it is a "port write for `data`" and sets `vdata` (R146, D19); with none, the default, nothing changes. -/
def unassignedPortWrite (a : Half) (v : Byte) (s : State) : State :=
  if s.cfg.dataLatchPort = some (ticPort a) then s.withTic (s.tic.withVdata v) else s

/-- The DKC's `reset()` (R220): the latches are not in its list. -/
def Dkc.resetFields (d : Dkc) : Dkc := { d with keyq := [], ctrl := ctrlIdle, fseq := 1 }

/-- The driver is halted or cancelled (R193): the state in which a host may mutate shared state. It reads `D.dstate`
alone, as R188, R189 and R224 do. -/
def Driver.stopped (d : Driver) : Bool := d.dstate != .running

/-- A host operation admitted only while the driver is halted or cancelled (R193). -/
def whenStopped (s : State) (t : State) : Host.Outcome State Fault Refusal :=
  if s.drv.stopped then .next t else .refused .driverNotStopped

/-- A position inside the halt exit (R185). -/
def Position.inHaltExit : Position → Bool
  | .haltWait _ => true
  | .haltBanner => true
  | .haltNotify => true
  | .cpuEntry => false
  | .cpuBody => false
  | .account _ => false
  | .tick _ => false
  | .raiseNmi _ => false
  | .takeReset => false
  | .checkHalt => false
  | .checkCancel => false
  | .measure => false
  | .terminated => false

/-- Where the driver task stands after a START (R189): at the beginning of an iteration. DEDUCED (log entry 10): a halt
exit under way is ended first, in the program order of the one driver task (R180). -/
def Position.afterStart (p : Position) : Position := if p.inHaltExit then p else .cpuEntry

/-- Where the driver task goes at the end of the halt exit (R185): it ends, or, where a START has come meanwhile, it runs
the loop, which R181 repeats while `D.dstate = running` (log entry 10). -/
def Driver.afterHaltExit (d : Driver) : Position := if d.dstate = .running then .cpuEntry else .terminated

/-- A fresh driver task (R189), at the wall-clock time `now`. -/
def Driver.start (d : Driver) (now : Rat) : Driver :=
  { d with
    dstate := .running, cancelReq := false, cumCycles := 0, sinceMeasure := 0, clockRateHz := none,
    startTime := now, pos := d.pos.afterStart }

/-- The clock-rate measurement `MaybeMeasure()` (R190), `t` seconds after the start. -/
def measureRate (t : Rat) (s : State) : State :=
  if clockMeasureCycles ≤ s.drv.sinceMeasure then
    let s' := s.withDrv { s.drv with sinceMeasure := 0 }
    if 0 < t then
      let hz : Rat := s.drv.cumCycles / t
      (s'.withDrv { s'.drv with clockRateHz := some hz }).emit (.clockRate hz)
    else s'
  else s

end Sys2Proof.Machine
end

