-- ==== Sys2Proof/Machine/DisplayKeyboard.lean ====
section
/-! DEFINITION. The DKC transactions of 40_display_keyboard.md. -/

namespace Sys2Proof.Machine

/-- DKC.RD_KEY (R101). -/
def execDkcRdKey (_a : Half) (s : State) : Host.Outcome State Fault Refusal := .next (dequeueKey s)

/-- DKC.RD_STATUS (R102): 0x00 whatever the state. -/
def execDkcRdStatus (_a : Half) (s : State) : Host.Outcome State Fault Refusal := .next (readZero s)

/-- DKC.RD_NONE (R103). -/
def execDkcRdNone (_a : Half) (s : State) : Host.Outcome State Fault Refusal := .next (readZero s)

/-- DKC.WR_DISP (R104). -/
def execDkcWrDisp (_a : Half) (v : Byte) (s : State) : Host.Outcome State Fault Refusal := .next (displayWrite v s)

/-- DKC.WR_CTRL (R105). -/
def execDkcWrCtrl (_a : Half) (v : Byte) (s : State) : Host.Outcome State Fault Refusal := .next (controlWrite v s)

/-- DKC.WR_NONE (R106): no state change, no event. -/
def execDkcWrNone (_a : Half) (_v : Byte) (s : State) : Host.Outcome State Fault Refusal := .next s

/-- DKC.KEY_ENQ (R107). -/
def execDkcKeyEnq (b : Byte) (s : State) : Host.Outcome State Fault Refusal := .next (enqueueKey b s)

end Sys2Proof.Machine
end

