-- ==== Sys2Proof/Machine/DriverHost.lean ====
section
/-! DEFINITION. The driver's BANNER and the host's operations on the driver, of 44_driver_host.md. -/

namespace Sys2Proof.Machine

/-- DKC.BANNER (R186). -/
def execDkcBanner (s : State) : Host.Outcome State Fault Refusal := .next (writeBanner s)

/-- DRV.CANCEL (R188). -/
def execDrvCancel (s : State) : Host.Outcome State Fault Refusal := .next (s.withDrv { s.drv with cancelReq := true })

/-- DRV.START (R189): refused while the driver runs (R193) and for an invalid configuration (R192). -/
def execDrvStart (s : State) : Host.Outcome State Fault Refusal :=
  if s.drv.stopped then
    if s.cfg.imagesFit then .next (s.withDrv (s.drv.start s.clock)) else .refused .configurationError
  else .refused .driverNotStopped

end Sys2Proof.Machine
end

