-- ==== Sys2Proof/Machine/Latches.lean ====
section
/-! DEFINITION. The interrupt-latch transactions of 42_interrupt_latches.md. -/

namespace Sys2Proof.Machine

/-- TIC.TAKE_NMI (R140). -/
def execTicTakeNmi (s : State) : Host.Outcome State Fault Refusal := .next (takeNmi s)

/-- TIC.TAKE_INT (R141). -/
def execTicTakeInt (s : State) : Host.Outcome State Fault Refusal := .next (takeIntr s)

/-- TIC.TAKE_RESET (R142). -/
def execTicTakeReset (s : State) : Host.Outcome State Fault Refusal := .next (takeReset s)

/-- TIC.TAKE_DATA (R143). -/
def execTicTakeData (s : State) : Host.Outcome State Fault Refusal := .next (takeVdata s)

/-- TIC.SET_NMI (R144). -/
def execTicSetNmi (s : State) : Host.Outcome State Fault Refusal := .next (raiseNmi s)

/-- TIC.SET_INT (R145). -/
def execTicSetInt (s : State) : Host.Outcome State Fault Refusal := .next (s.withTic (s.tic.withIntr true))

/-- TIC.SET_DATA (R146). -/
def execTicSetData (b : Byte) (s : State) : Host.Outcome State Fault Refusal := .next (s.withTic (s.tic.withVdata b))

/-- TIC.REQ_RESET (R147). -/
def execTicReqReset (s : State) : Host.Outcome State Fault Refusal := .next (s.withTic (s.tic.withRstreq true))

end Sys2Proof.Machine
end

