-- ==== Sys2Proof/Machine/Reset.lean ====
section
/-! DEFINITION. The four reset operations of 70_reset_and_hazards.md. -/

namespace Sys2Proof.Machine

/-- DKC.RESET (R220), admitted as R193 says. -/
def execDkcReset (s : State) : Host.Outcome State Fault Refusal := whenStopped s (s.withDkc s.dkc.resetFields)

/-- TIC.RESET (R221), admitted as R193 says: every field at its zero, idle or `abort` value. -/
def execTicReset (s : State) : Host.Outcome State Fault Refusal := whenStopped s (s.withTic Tic.powerOn)

/-- DKC.POWER_ON (R222), admitted as R193 says: a construction emits no event. -/
def execDkcPowerOn (s : State) : Host.Outcome State Fault Refusal := whenStopped s (s.withDkc Dkc.powerOn)

/-- TIC.POWER_ON (R223), admitted as R193 says. -/
def execTicPowerOn (s : State) : Host.Outcome State Fault Refusal := whenStopped s (s.withTic Tic.powerOn)

end Sys2Proof.Machine
end

