-- ==== Sys2Proof/Machine/Serial.lean ====
section
/-! DEFINITION. The serial-line transactions of 43_serial.md. -/

namespace Sys2Proof.Machine

/-- TIC.RD_SER (R161). -/
def execTicRdSer (_a : Half) (s : State) : Host.Outcome State Fault Refusal := .next (serialRead s)

/-- TIC.WR_SER_ON (R162): only v[7] is used. -/
def execTicWrSerOn (_a : Half) (v : Byte) (s : State) : Host.Outcome State Fault Refusal := .next (serialWrite v s)

/-- TIC.WR_SER_OFF (R163): no state change. -/
def execTicWrSerOff (_a : Half) (_v : Byte) (s : State) : Host.Outcome State Fault Refusal := .next s

/-- TIC.SET_SID (R164): the counter and the connect flag are kept. -/
def execTicSetSid (b : Byte) (s : State) : Host.Outcome State Fault Refusal :=
  .next (s.withTic { s.tic with inputByte := b })

end Sys2Proof.Machine
end

