-- ==== Sys2Proof/Machine/Timer.lean ====
section
/-! DEFINITION. The interval-timer transactions of 41_timer.md, and the two TIC no-op accesses. -/

namespace Sys2Proof.Machine

/-- TIC.WR_CMD_NOP (R121): no state change. -/
def execTicWrCmdNop (_a : Half) (_v : Byte) (s : State) : Host.Outcome State Fault Refusal := .next s

/-- TIC.WR_CMD_ABORT (R122): `count` is kept. -/
def execTicWrCmdAbort (_a : Half) (_v : Byte) (s : State) : Host.Outcome State Fault Refusal :=
  .next (s.withTic (s.tic.withTstate .abort))

/-- TIC.WR_CMD_PEND (R123): `count` is kept. -/
def execTicWrCmdPend (_a : Half) (_v : Byte) (s : State) : Host.Outcome State Fault Refusal :=
  .next (s.withTic (s.tic.withTstate .pending))

/-- TIC.WR_CMD_START (R124): `count` is reloaded. -/
def execTicWrCmdStart (_a : Half) (_v : Byte) (s : State) : Host.Outcome State Fault Refusal :=
  .next (s.withTic (s.tic.withTstate .started).reload)

/-- TIC.WR_PLO (R125). -/
def execTicWrPlo (_a : Half) (v : Byte) (s : State) : Host.Outcome State Fault Refusal :=
  .next (s.withTic { s.tic with period := periodWithLow s.tic.period v })

/-- TIC.WR_PHI (R126). -/
def execTicWrPhi (_a : Half) (v : Byte) (s : State) : Host.Outcome State Fault Refusal :=
  .next (s.withTic { s.tic with period := periodWithHigh s.tic.period v })

/-- TIC.TICK (R127): `n = zext(ARG)` units (R83). -/
def execTicTick (n : Half) (s : State) : Host.Outcome State Fault Refusal := .next (tickTimer n.toNat s)

/-- TIC.RD_NONE (R129). -/
def execTicRdNone (_a : Half) (s : State) : Host.Outcome State Fault Refusal := .next (readZero s)

/-- TIC.WR_NONE (R130; a configured DATA_LATCH_PORT: log entry 9). -/
def execTicWrNone (a : Half) (v : Byte) (s : State) : Host.Outcome State Fault Refusal :=
  .next (unassignedPortWrite a v s)

end Sys2Proof.Machine
end

