-- ==== Sys2Proof/Machine/Dispatch.lean ====
section
/-! DEFINITION. The meaning of every transaction: one arm per constructor of Instr. -/

namespace Sys2Proof.Machine

def exec (i : Instr) (s : State) : Host.Outcome State Fault Refusal :=
  match i with
  | .dkcRdKey a => Sys2Proof.Machine.execDkcRdKey a s
  | .dkcRdStatus a => Sys2Proof.Machine.execDkcRdStatus a s
  | .dkcRdNone a => Sys2Proof.Machine.execDkcRdNone a s
  | .dkcWrDisp a v => Sys2Proof.Machine.execDkcWrDisp a v s
  | .dkcWrCtrl a v => Sys2Proof.Machine.execDkcWrCtrl a v s
  | .dkcWrNone a v => Sys2Proof.Machine.execDkcWrNone a v s
  | .ticWrCmdNop a v => Sys2Proof.Machine.execTicWrCmdNop a v s
  | .ticWrCmdAbort a v => Sys2Proof.Machine.execTicWrCmdAbort a v s
  | .ticWrCmdPend a v => Sys2Proof.Machine.execTicWrCmdPend a v s
  | .ticWrCmdStart a v => Sys2Proof.Machine.execTicWrCmdStart a v s
  | .ticWrPlo a v => Sys2Proof.Machine.execTicWrPlo a v s
  | .ticWrPhi a v => Sys2Proof.Machine.execTicWrPhi a v s
  | .ticWrSerOn a v => Sys2Proof.Machine.execTicWrSerOn a v s
  | .ticWrSerOff a v => Sys2Proof.Machine.execTicWrSerOff a v s
  | .ticWrNone a v => Sys2Proof.Machine.execTicWrNone a v s
  | .ticRdSer a => Sys2Proof.Machine.execTicRdSer a s
  | .ticRdNone a => Sys2Proof.Machine.execTicRdNone a s
  | .ticTick n => Sys2Proof.Machine.execTicTick n s
  | .ticTakeNmi => Sys2Proof.Machine.execTicTakeNmi s
  | .ticTakeInt => Sys2Proof.Machine.execTicTakeInt s
  | .ticTakeReset => Sys2Proof.Machine.execTicTakeReset s
  | .ticTakeData => Sys2Proof.Machine.execTicTakeData s
  | .ticSetNmi => Sys2Proof.Machine.execTicSetNmi s
  | .dkcBanner => Sys2Proof.Machine.execDkcBanner s
  | .dkcKeyEnq b => Sys2Proof.Machine.execDkcKeyEnq b s
  | .ticSetSid b => Sys2Proof.Machine.execTicSetSid b s
  | .ticSetInt => Sys2Proof.Machine.execTicSetInt s
  | .ticSetData b => Sys2Proof.Machine.execTicSetData b s
  | .ticReqReset => Sys2Proof.Machine.execTicReqReset s
  | .dkcReset => Sys2Proof.Machine.execDkcReset s
  | .ticReset => Sys2Proof.Machine.execTicReset s
  | .dkcPowerOn => Sys2Proof.Machine.execDkcPowerOn s
  | .ticPowerOn => Sys2Proof.Machine.execTicPowerOn s
  | .drvCancel => Sys2Proof.Machine.execDrvCancel s
  | .drvStart => Sys2Proof.Machine.execDrvStart s

end Sys2Proof.Machine
end

