-- ==== Sys2Proof/Machine/DriverLoop.lean ====
section
/-! DEFINITION. The driver task (R181-R187): its next indivisible step, from where it stands; and what one input of the
environment does. -/

namespace Sys2Proof.Machine

/-- A bus transaction of the CPU (R13, R182): decoded by the controller ROUTE sends it to, or none of the block's
where ROUTE sends it elsewhere. The CPU sees no refusal: a bus access always has a row (R88). -/
def cpuBus (target : Option BusUnit) (access : BusUnit → Instr) (s : State) : Host.Outcome State Fault Refusal :=
  match target with
  | none => .next s
  | some u => exec (access u) s

/-- One move of the CPU inside its `step()` (R182); its return ends step 1 of the iteration (R181). -/
def cpuMove (m : CpuMove) (s : State) : Host.Outcome State Fault Refusal :=
  match m with
  | .load sp a => cpuBus (s.cfg.routeOf sp a) (fun u => busRead u a) s
  | .store sp a v => cpuBus (s.cfg.routeOf sp a) (fun u => busWrite s.cfg.soeMask u a v) s
  | .takeNmi => .next (takeNmi s)
  | .takeInt => .next (takeIntr s)
  | .takeData => .next (takeVdata s)
  | .ret cycles => .next (s.goto (.account cycles))

/-- Step 2 of R181: the cycles of the CPU step are accumulated. -/
def accountCycles (cycles : Nat) (s : State) : State :=
  s.withDrv { s.drv with
    cumCycles := s.drv.cumCycles + cycles, sinceMeasure := s.drv.sinceMeasure + cycles, pos := .tick cycles }

/-- Step 5 of R181: the reset request is taken, and a true one calls `CPU.reset()` (R184), which reaches no state of
the block; the model counts the calls (log entry 11). -/
def serveReset (s : State) : State :=
  let t := takeReset s
  t.withDrv { t.drv with
    cpuResets := if s.tic.rstreq then t.drv.cpuResets + 1 else t.drv.cpuResets, pos := .checkHalt }

/-- The loop ends with this driver state, the task going on at `p` (R185, R187). -/
def leaveLoop (x : DriverState) (p : Position) (s : State) : State :=
  s.withDrv { s.drv with dstate := x, pos := p }

/-- The wait of the halt exit (R185): the task goes on once BANNER_DELAY has passed on the wall clock (log entry 13). -/
def awaitBanner (since : Rat) (s : State) : State :=
  if since + s.cfg.bannerDelay ≤ s.clock then s.goto .haltBanner else s

/-- The next indivisible step of the driver task (R181, R185), where the CPU answers `a`. A task that has ended takes
none: R74's `halted` is read as the end of the halt exit, so the banner follows a reset admitted in it (log entry 25). -/
def driverMove (a : CpuAnswer) (s : State) : Host.Outcome State Fault Refusal :=
  match s.drv.pos with
  | .terminated => .next s
  | .cpuEntry =>
    if s.drv.dstate = .running then .next ((takeNmi s).goto .cpuBody) else .next (s.goto .terminated)
  | .cpuBody => cpuMove a.move s
  | .account cycles => .next (accountCycles cycles s)
  | .tick cycles => .next ((tickTimer cycles s).goto (.raiseNmi (s.tic.tick cycles).1))
  | .raiseNmi elapsed => .next ((if elapsed then raiseNmi s else s).goto .takeReset)
  | .takeReset => .next (serveReset s)
  | .checkHalt => .next (if a.halted then leaveLoop .halted (.haltWait s.clock) s else s.goto .checkCancel)
  | .haltWait since => .next (awaitBanner since s)
  | .haltBanner => .next ((writeBanner s).goto .haltNotify)
  | .haltNotify => .next ((s.emit .halted).goto s.drv.afterHaltExit)
  | .checkCancel => .next (if s.drv.cancelReq then leaveLoop .cancelled .terminated s else s.goto .measure)
  | .measure => .next ((measureRate (s.clock - s.drv.startTime) s).goto .cpuEntry)

/-- A transaction word presented to the block: the transaction it decodes to, or a refusal (R86). -/
def presentWord (w : Word) (s : State) : Host.Outcome State Fault Refusal :=
  match decode s.cfg.soeMask w with
  | .ok i => exec i s
  | .error e => .refused (.reservedWord e)

/-- Wall-clock time passes (R190): never a negative amount, so `now()` never decreases. -/
def passTime (num den : Nat) (s : State) : State := { s with clock := s.clock + (num : Rat) / ((den : Rat) + 1) }

/-- A move of one of the agents, or of the wall clock (R180): the host's is a word of KIND 3, whatever its fields. -/
def agentMove (m : AgentMove) (s : State) : Host.Outcome State Fault Refusal :=
  match m with
  | .host unit op arg => presentWord (opWord 3 unit op arg) s
  | .driver a => driverMove a s
  | .elapse num den => .next (passTime num den s)

/-- What one listed input does to the machine: the next transaction of a program, or a move of an agent. -/
def act (x : Input) (s : State) : Host.Outcome State Fault Refusal :=
  match x with
  | .word w => presentWord w s
  | .agent m => agentMove m s

end Sys2Proof.Machine
end

