-- ==== Sys2Proof/Machine/Step.lean ====
section
/-! DEFINITION. One step of the machine: the next input acts. -/

namespace Sys2Proof.Machine

/-- One step: the head of the inbox acts, and where the inbox lists nothing, the agent that a free value says moves
(log entries 1 and 2). -/
def step (s : State) : Host.Outcome State Fault Refusal :=
  match s.inbox with
  | x :: rest => act x { s with inbox := rest }
  | [] => agentMove (Config.environment s.draws) { s with draws := s.draws + 1 }

/-- The state with the transaction word `w` where the next step takes it from: at the head of the inbox. A word is 32
bits whatever `nbits` says; the bits above `nbits` are 0. -/
def State.withFetchWord (s : State) (nbits w : Nat) : State :=
  { s with inbox := .word (BitVec.ofNat 32 (w % 2 ^ nbits)) :: s.inbox }

end Sys2Proof.Machine
end

