-- ==== Sys2Proof/Safety.lean ====
section
/-! DEFINITION. The terms claims use: runs of transactions and of the driver task, what they return, the machine's
invariant, and what a host observer may see. -/

namespace Sys2Proof

/-- The rows whose transaction returns a value (R101-R103, R127, R129, R140-R143, R161). -/
def Instr.returnsValue : Instr → Bool
  | .dkcRdKey _ => true
  | .dkcRdStatus _ => true
  | .dkcRdNone _ => true
  | .ticRdSer _ => true
  | .ticRdNone _ => true
  | .ticTick _ => true
  | .ticTakeNmi => true
  | .ticTakeInt => true
  | .ticTakeReset => true
  | .ticTakeData => true
  | .dkcWrDisp _ _ => false
  | .dkcWrCtrl _ _ => false
  | .dkcWrNone _ _ => false
  | .ticWrCmdNop _ _ => false
  | .ticWrCmdAbort _ _ => false
  | .ticWrCmdPend _ _ => false
  | .ticWrCmdStart _ _ => false
  | .ticWrPlo _ _ => false
  | .ticWrPhi _ _ => false
  | .ticWrSerOn _ _ => false
  | .ticWrSerOff _ _ => false
  | .ticWrNone _ _ => false
  | .ticSetNmi => false
  | .dkcBanner => false
  | .dkcKeyEnq _ => false
  | .ticSetSid _ => false
  | .ticSetInt => false
  | .ticSetData _ => false
  | .ticReqReset => false
  | .dkcReset => false
  | .ticReset => false
  | .dkcPowerOn => false
  | .ticPowerOn => false
  | .drvCancel => false
  | .drvStart => false

/-- The host operations that mutate shared state, admitted only while the driver is halted or cancelled (R193). -/
def Instr.needsStoppedDriver (i : Instr) : Bool :=
  i == .dkcReset || i == .ticReset || i == .dkcPowerOn || i == .ticPowerOn || i == .drvStart

/-- The match and the mask of the instruction's row of the opcode table, shown there for SOE_MASK = 0x40 (R85). -/
def Instr.tableRow : Instr → Word × Word
  | .dkcRdKey _ => (0x00000000, 0xFF01FFFF)
  | .dkcRdStatus _ => (0x00010000, 0xFF01FFFF)
  | .dkcRdNone _ => (0x00000000, 0xFF0000FF)
  | .dkcWrDisp _ _ => (0x10000000, 0xFF01FF00)
  | .dkcWrCtrl _ _ => (0x10010000, 0xFF01FF00)
  | .dkcWrNone _ _ => (0x10000000, 0xFF000000)
  | .ticWrCmdNop _ _ => (0x11002000, 0xFF00FFC0)
  | .ticWrCmdAbort _ _ => (0x11002040, 0xFF00FFC0)
  | .ticWrCmdPend _ _ => (0x11002080, 0xFF00FFC0)
  | .ticWrCmdStart _ _ => (0x110020C0, 0xFF00FFC0)
  | .ticWrPlo _ _ => (0x11002400, 0xFF00FF00)
  | .ticWrPhi _ _ => (0x11002500, 0xFF00FF00)
  | .ticWrSerOn _ _ => (0x1100FF40, 0xFF00FF40)
  | .ticWrSerOff _ _ => (0x1100FF00, 0xFF00FF40)
  | .ticWrNone _ _ => (0x11000000, 0xFF000000)
  | .ticRdSer _ => (0x0100FF00, 0xFF00FFFF)
  | .ticRdNone _ => (0x01000000, 0xFF0000FF)
  | .ticTick _ => (0x21000000, 0xFFFF0000)
  | .ticTakeNmi => (0x21010000, 0xFFFFFFFF)
  | .ticTakeInt => (0x21020000, 0xFFFFFFFF)
  | .ticTakeReset => (0x21030000, 0xFFFFFFFF)
  | .ticTakeData => (0x21040000, 0xFFFFFFFF)
  | .ticSetNmi => (0x21050000, 0xFFFFFFFF)
  | .dkcBanner => (0x20060000, 0xFFFFFFFF)
  | .dkcKeyEnq _ => (0x30100000, 0xFFFFFF00)
  | .ticSetSid _ => (0x31110000, 0xFFFFFF00)
  | .ticSetInt => (0x31120000, 0xFFFFFFFF)
  | .ticSetData _ => (0x31130000, 0xFFFFFF00)
  | .ticReqReset => (0x31140000, 0xFFFFFFFF)
  | .dkcReset => (0x30200000, 0xFFFFFFFF)
  | .ticReset => (0x31200000, 0xFFFFFFFF)
  | .dkcPowerOn => (0x30210000, 0xFFFFFFFF)
  | .ticPowerOn => (0x31210000, 0xFFFFFFFF)
  | .drvCancel => (0x32300000, 0xFFFFFFFF)
  | .drvStart => (0x32310000, 0xFFFFFFFF)

/-- The match and the mask of the rows of the operations, KIND 2 and 3, as the opcode table prints them (R85). -/
def opRows : List (Word × Word) :=
  [Instr.ticTick 0, .ticTakeNmi, .ticTakeInt, .ticTakeReset, .ticTakeData, .ticSetNmi, .dkcBanner, .dkcKeyEnq 0,
    .ticSetSid 0, .ticSetInt, .ticSetData 0, .ticReqReset, .dkcReset, .ticReset, .dkcPowerOn, .ticPowerOn, .drvCancel,
    .drvStart].map Instr.tableRow

/-- KIND, UNIT and OP of a format O word together, bits 31:16 (R82). -/
def opSelector (w : Word) : Half := w.extractLsb' 16 16

namespace Machine

/-- The state an outcome goes on with, if any. -/
def nextState (o : Host.Outcome State Fault Refusal) : Option State :=
  match o with
  | .next t => some t
  | .fault _ => none
  | .refused _ => none

/-- Transactions performed one after another, each of which must answer a next state: the values they return, in order
(only of the rows that return one), and the state at the end. -/
def runAll : List Instr → State → Option (List Returned × State)
  | [], s => some ([], s)
  | i :: is, s =>
    match nextState (exec i s) with
    | none => none
    | some t =>
      match runAll is t with
      | none => none
      | some (rs, u) => some (if i.returnsValue then t.ret :: rs else rs, u)

/-- The driver task's own steps one after another, with no host operation between them, where the CPU gives these
answers (R181). -/
def driverRun : List CpuAnswer → State → Option State
  | [], s => some s
  | a :: as, s =>
    match nextState (driverMove a s) with
    | none => none
    | some t => driverRun as t

/-- A position inside the driver loop (R181). -/
def Position.inLoop : Position → Bool
  | .cpuEntry => true
  | .cpuBody => true
  | .account _ => true
  | .tick _ => true
  | .raiseNmi _ => true
  | .takeReset => true
  | .checkHalt => true
  | .checkCancel => true
  | .measure => true
  | .haltWait _ => false
  | .haltBanner => false
  | .haltNotify => false
  | .terminated => false

/-- The driver's state agrees with where its task stands (R181, R185, R187, R189): running in the loop, or in a halt exit
that a START found under way (log entry 10); halted in the halt exit or after it; cancelled with no task. -/
def Driver.coherent (d : Driver) : Bool :=
  match d.dstate with
  | .running => d.pos.inLoop || d.pos.inHaltExit
  | .halted => d.pos.inHaltExit || d.pos == .terminated
  | .cancelled => d.pos == .terminated

/-- The invariant of the machine. -/
structure State.Inv (s : State) : Prop where
  /-- The counter is 1-based (R22, R25). -/
  fseq_pos : 1 ≤ s.dkc.fseq
  /-- Bits 15:14 of the period are always 0 (R26). -/
  period_lt : s.tic.period.toNat < 0x4000
  /-- `count` stays in 0..0x3FFF (R93, C5). -/
  count_lt : s.tic.count.toNat < 0x4000
  /-- After an elapsed in `pending`, `count` is 0 (R127, D13). -/
  stopped_count : s.tic.tstate = .stopped → s.tic.count = 0
  /-- The shift leaves bit 7 of the accumulator 0 (R162, D18). -/
  outputByte_lt : s.tic.outputByte.toNat < 0x80
  /-- Every appended character has bit 7 = 0 (R162, D18). -/
  transcript_lt : ∀ c ∈ s.tic.transcript, c.toNat < 0x80
  /-- The cycles since the last measurement are among those since the start (R41, R190). -/
  measure_le : s.drv.sinceMeasure ≤ s.drv.cumCycles
  /-- The wall clock never decreases (93_implementation_defined.md row 2; log entry 7). -/
  start_le : s.drv.startTime ≤ s.clock
  /-- `clockRateHz` is non-negative where it is present (R41, R190; log entry 19). -/
  rate_nonneg : ∀ hz, s.drv.clockRateHz = some hz → 0 ≤ hz
  /-- A banner delay began no later than the wall clock reads (R185; log entry 13). -/
  wait_le : ∀ since, s.drv.pos = .haltWait since → since ≤ s.clock
  /-- The driver's state and its task agree (R181, R185, R187, R189; log entries 10 and 18). -/
  driver_coherent : s.drv.coherent = true

/-- Where an output event comes from: a controller, or the driver (R191). -/
inductive Source where
  | dkc
  | tic
  | driver
  deriving DecidableEq, Repr

/-- The source of an event (R108, R162, R185, R190). -/
def Event.source : Event → Source
  | .latchWrite _ _ _ => .dkc
  | .serialChar _ => .tic
  | .clockRate _ => .driver
  | .halted => .driver

/-- What a host observer may see of a history (R72): the events of each source in their order, those of different
sources in any relative order. DESIGN CHOICE (log entry 16): the driver's own events count as a third source, and every
event is seen once, none dropped and none merged, which 91_not_in_source.md N30 leaves open. -/
def hostMaySee (history seen : List Event) : Prop :=
  ∀ u : Source, seen.filter (fun e => e.source == u) = history.filter (fun e => e.source == u)

/-- Two states that differ at most in the six display latches. -/
def State.sameButLatches (s t : State) : Prop :=
  { s with dkc := { s.dkc with addr := t.dkc.addr, data := t.dkc.data } } = t

end Machine
end Sys2Proof
end

