-- ==== Sys2Proof/Certificates/Slice0/Obligations.lean ====
section
/-! DEFINITION. What is claimed of the machine, from the rules of spec/. A statement of the form `exec i s = .next t`
gives the whole next state, so every field it does not name is unchanged. -/

open Sys2Proof Sys2Proof.Machine

/-! Display/keyboard controller -/

/-- R101: a read of the data register removes and returns the oldest key code; an empty queue returns 0x00. -/
def Obligations.KeyReadDequeuesOldestCode : Prop :=
  ∀ (a : Half) (s : State),
    (s.dkc.keyq = [] → exec (.dkcRdKey a) s = .next { s with ret := .byte 0x00 }) ∧
    ∀ (k : Byte) (q : List Byte), s.dkc.keyq = k :: q →
      exec (.dkcRdKey a) s = .next { s with dkc := { s.dkc with keyq := q }, ret := .byte k }

/-- R102, R103: every other read of the DKC window returns 0x00 and writes no state. -/
def Obligations.OtherDkcReadsReturnZero : Prop :=
  ∀ (a : Half) (s : State),
    exec (.dkcRdStatus a) s = .next { s with ret := .byte 0x00 } ∧
    exec (.dkcRdNone a) s = .next { s with ret := .byte 0x00 }

/-- 40_display_keyboard.md section 3 (R104, with the spec's choices D7 of a counter that never wraps and D8 of the glyph):
what a data-register write stores, publishes and counts, in each command class and at each counter value. -/
def Obligations.DisplayWriteFillsTheNextSlot : Prop :=
  ∀ (a : Half) (v : Byte) (s : State),
    (s.dkc.ctrl = cmdFillAddr → ∀ i : Fin 4, s.dkc.fseq = i + 1 →
      exec (.dkcWrDisp a v) s = .next { s with
        dkc := { s.dkc with addr := s.dkc.addr.set i (glyph v), fseq := i + 2 },
        events := s.events ++ [.latchWrite .addr (i + 1) (glyph v)] }) ∧
    (s.dkc.ctrl = cmdFillAddr → (s.dkc.fseq = 0 ∨ 5 ≤ s.dkc.fseq) →
      exec (.dkcWrDisp a v) s = .next { s with dkc := { s.dkc with fseq := s.dkc.fseq + 1 } }) ∧
    (s.dkc.ctrl ≠ cmdFillAddr → s.dkc.ctrl = s.cfg.cmdFillData → ∀ i : Fin 2, s.dkc.fseq = i + 1 →
      exec (.dkcWrDisp a v) s = .next { s with
        dkc := { s.dkc with data := s.dkc.data.set i (glyph v), fseq := i + 2 },
        events := s.events ++ [.latchWrite .data (i + 1) (glyph v)] }) ∧
    (s.dkc.ctrl ≠ cmdFillAddr → s.dkc.ctrl = s.cfg.cmdFillData → (s.dkc.fseq = 0 ∨ 3 ≤ s.dkc.fseq) →
      exec (.dkcWrDisp a v) s = .next { s with dkc := { s.dkc with fseq := s.dkc.fseq + 1 } }) ∧
    (s.dkc.ctrl ≠ cmdFillAddr → s.dkc.ctrl ≠ s.cfg.cmdFillData → exec (.dkcWrDisp a v) s = .next s)

/-- R100 (the spec's reading of the source, D8): bit `j` of a glyph is the inverse of the bit of the source byte half a byte
away, and the byte to write for a wanted latch value `g` is `glyph g`, in each slot of each field. -/
def Obligations.WritingTheGlyphOfAGlyphStoresIt : Prop :=
  (∀ (v : Byte) (j : Nat), j < 8 → (glyph v).getLsbD j = !v.getLsbD ((j + 4) % 8)) ∧
  ∀ (a : Half) (g : Byte) (s : State),
    (s.dkc.ctrl = cmdFillAddr → ∀ i : Fin 4, s.dkc.fseq = i + 1 →
      exec (.dkcWrDisp a (glyph g)) s = .next { s with
        dkc := { s.dkc with addr := s.dkc.addr.set i g, fseq := i + 2 },
        events := s.events ++ [.latchWrite .addr (i + 1) g] }) ∧
    (s.dkc.ctrl ≠ cmdFillAddr → s.dkc.ctrl = s.cfg.cmdFillData → ∀ i : Fin 2, s.dkc.fseq = i + 1 →
      exec (.dkcWrDisp a (glyph g)) s = .next { s with
        dkc := { s.dkc with data := s.dkc.data.set i g, fseq := i + 2 },
        events := s.events ++ [.latchWrite .data (i + 1) g] })

/-- R105: a control-register write stores every value and restarts the fill at slot 1. -/
def Obligations.ControlWriteStoresAndRestarts : Prop :=
  ∀ (a : Half) (v : Byte) (s : State),
    exec (.dkcWrCtrl a v) s = .next { s with dkc := { s.dkc with ctrl := v, fseq := 1 } }

/-- R106: a write of any other address in the DKC window changes nothing and emits nothing. -/
def Obligations.UnmappedDkcWriteIsIgnored : Prop :=
  ∀ (a : Half) (v : Byte) (s : State), exec (.dkcWrNone a v) s = .next s

/-- R107: an enqueue appends the code, whatever it is. -/
def Obligations.KeyEnqueueAppends : Prop :=
  ∀ (b : Byte) (s : State),
    exec (.dkcKeyEnq b) s = .next { s with dkc := { s.dkc with keyq := s.dkc.keyq ++ [b] } }

/-- R73: over any interleaving of enqueues and data-register reads, the codes `served` are the oldest of those queued
at the start and enqueued since, in that order, each once, and `q` is what stays queued. Each read, wherever it stands in
the run, returns and removes the head of the queue that the accesses before it leave, and returns 0x00 in its place only
where that queue is empty. -/
def Obligations.KeysAreServedInOrder : Prop :=
  ∀ (is : List Instr) (s : State),
    (∀ i ∈ is, (∃ a, i = .dkcRdKey a) ∨ ∃ b, i = .dkcKeyEnq b) →
    ∃ (served : List Byte) (rs : List Returned) (r : Returned) (q : List Byte),
      runAll is s = some (rs, { s with dkc := { s.dkc with keyq := q }, ret := r }) ∧
      served ++ q = s.dkc.keyq ++ is.filterMap (fun i => match i with | .dkcKeyEnq b => some b | _ => none) ∧
      (served.map Returned.byte).Sublist rs ∧
      rs.length = is.countP (fun i => match i with | .dkcRdKey _ => true | _ => false) ∧
      rs.filter (· != .byte 0x00) = (served.map Returned.byte).filter (· != .byte 0x00) ∧
      ∀ (pre post : List Instr) (a : Half), is = pre ++ .dkcRdKey a :: post →
        ∃ (before after : List Returned) (t : State),
          runAll pre s = some (before, t) ∧
          rs = before ++ .byte (t.dkc.keyq.headD 0x00) :: after ∧
          exec (.dkcRdKey a) t = .next { t with
            dkc := { t.dkc with keyq := t.dkc.keyq.tail }, ret := .byte (t.dkc.keyq.headD 0x00) }

/-- 40_display_keyboard.md section 5, address fields (the spec's inference R109): after a control write of the fill
command, k data writes fill the first min(k, 4) slots in order, count k, and publish exactly those slots. -/
def Obligations.AddressFillSequence : Prop :=
  ∀ (a : Half) (ws : List (Half × Byte)) (s : State), ∃ t : State,
    runAll (.dkcWrCtrl a cmdFillAddr :: ws.map (fun w => .dkcWrDisp w.1 w.2)) s = some ([], t) ∧
    (∀ i : Fin 4, t.dkc.addr[i] = ((ws.map fun w => glyph w.2)[i.val]?).getD s.dkc.addr[i]) ∧
    t.events = s.events ++ (ws.take 4).mapIdx (fun j w => Event.latchWrite .addr (j + 1) (glyph w.2)) ∧
    t = { s with
      dkc := { s.dkc with ctrl := cmdFillAddr, fseq := ws.length + 1, addr := t.dkc.addr }, events := t.events }

/-- 40_display_keyboard.md section 5, data fields (the spec's inference R109), for a configuration whose two fill
commands differ (R8). -/
def Obligations.DataFillSequence : Prop :=
  ∀ (a : Half) (ws : List (Half × Byte)) (s : State), s.cfg.cmdFillData ≠ cmdFillAddr → ∃ t : State,
    runAll (.dkcWrCtrl a s.cfg.cmdFillData :: ws.map (fun w => .dkcWrDisp w.1 w.2)) s = some ([], t) ∧
    (∀ i : Fin 2, t.dkc.data[i] = ((ws.map fun w => glyph w.2)[i.val]?).getD s.dkc.data[i]) ∧
    t.events = s.events ++ (ws.take 2).mapIdx (fun j w => Event.latchWrite .data (j + 1) (glyph w.2)) ∧
    t = { s with
      dkc := { s.dkc with ctrl := s.cfg.cmdFillData, fseq := ws.length + 1, data := t.dkc.data }, events := t.events }

/-- 40_display_keyboard.md section 5 (the spec's inference R110), for every transaction: two states that differ only in
the display latches return the same values and go on differing only there, so no access reads a latch back. -/
def Obligations.NoTransactionReadsTheLatches : Prop :=
  ∀ (i : Instr) (s t s' : State), s.sameButLatches t → exec i s = .next s' →
    ∃ t' : State, exec i t = .next t' ∧ s'.sameButLatches t'

/-! Interval timer -/

/-- R124: a start command reloads the count, from every timer state. -/
def Obligations.StartCommandReloadsTheCount : Prop :=
  ∀ (a : Half) (v : Byte) (s : State),
    exec (.ticWrCmdStart a v) s =
      .next { s with tic := { s.tic with tstate := .started, count := s.tic.period } }

/-- 41_timer.md section 2: the other three commands. That abort and pending keep `count` is the spec's choice D11, and
that TM = 00 changes nothing is its choice D10. -/
def Obligations.OtherTimerCommandsKeepTheCount : Prop :=
  ∀ (a : Half) (v : Byte) (s : State),
    exec (.ticWrCmdNop a v) s = .next s ∧
    exec (.ticWrCmdAbort a v) s = .next { s with tic := { s.tic with tstate := .abort } } ∧
    exec (.ticWrCmdPend a v) s = .next { s with tic := { s.tic with tstate := .pending } }

/-- R125, R126, as numbers: the low byte is replaced, or bits 13:8 with the top two bits of the byte masked off and
bits 15:14 becoming 0; `count` and `tstate` are unchanged. -/
def Obligations.PeriodWritesReplaceTheirBits : Prop :=
  ∀ (a : Half) (v : Byte) (s : State), ∃ lo hi : Half,
    exec (.ticWrPlo a v) s = .next { s with tic := { s.tic with period := lo } } ∧
    lo.toNat = s.tic.period.toNat / 256 * 256 + v.toNat ∧
    exec (.ticWrPhi a v) s = .next { s with tic := { s.tic with period := hi } } ∧
    hi.toNat = s.tic.period.toNat % 256 + v.toNat % 64 * 256

/-- 41_timer.md section 4 (R127 with the spec's choices D12 and D13, in the closed form R128 infers): TICK over every
state and every argument. -/
def Obligations.TickClosedForm : Prop :=
  ∀ (n : Half) (s : State),
    exec (.ticTick n) s =
      if (s.tic.tstate ≠ .started ∧ s.tic.tstate ≠ .pending) ∨ n = 0 then .next { s with ret := .flag false }
      else if n.toNat < max s.tic.count.toNat 1 then
        .next { s with tic := { s.tic with count := s.tic.count - n }, ret := .flag false }
      else if s.tic.tstate = .started then
        .next { s with tic := { s.tic with count := s.tic.period }, ret := .flag true }
      else .next { s with tic := { s.tic with count := 0, tstate := .stopped }, ret := .flag true }

/-- 41_timer.md section 4 (the spec's inference in R128): from a fresh start with count = P ≥ 1, ticks whose sizes sum
to less than P report nothing, and the tick that brings the sum to P or more reports the first elapsed. -/
def Obligations.FirstElapsedComesWhenTheSumReachesThePeriod : Prop :=
  ∀ (ns : List Half) (n : Half) (s : State),
    s.tic.tstate = .started → s.tic.count = s.tic.period → 1 ≤ s.tic.period.toNat →
    (ns.map (·.toNat)).sum < s.tic.period.toNat → s.tic.period.toNat ≤ (ns.map (·.toNat)).sum + n.toNat →
    runAll (ns.map .ticTick ++ [.ticTick n]) s =
      some (ns.map (fun _ => .flag false) ++ [.flag true], { s with ret := .flag true })

/-- 41_timer.md section 5 (R129, with the spec's choice D14 for the timer ports): a read of every port but the serial
one returns 0x00 and writes no state. -/
def Obligations.OtherTicReadsReturnZero : Prop :=
  ∀ (a : Half) (s : State), exec (.ticRdNone a) s = .next { s with ret := .byte 0x00 }

/-- 41_timer.md section 5 (R130): with DATA_LATCH_PORT at its default, none, a write of a TIC port with no register
changes nothing. The other configurations are DataLatchPortWriteSetsTheVectorData. -/
def Obligations.UnassignedTicWriteIsIgnored : Prop :=
  ∀ (a : Half) (v : Byte) (s : State), s.cfg.dataLatchPort = none → exec (.ticWrNone a v) s = .next s

/-- The model's choice (log entry 9, from D19 and R146's "port writes for `data`"): where a DATA_LATCH_PORT is
configured, a write of it sets the vector-data latch, and a write of another unassigned port changes nothing. -/
def Obligations.DataLatchPortWriteSetsTheVectorData : Prop :=
  ∀ (a : Half) (v p : Byte) (s : State), s.cfg.dataLatchPort = some p →
    (a.toNat % 256 = p.toNat → exec (.ticWrNone a v) s = .next { s with tic := { s.tic with vdata := v } }) ∧
    (a.toNat % 256 ≠ p.toNat → exec (.ticWrNone a v) s = .next s)

/-! Interrupt latches -/

/-- R140, R141, R142, R143: a take returns its latch and clears it in one step, and touches nothing else. -/
def Obligations.TakesReturnAndClearTheirLatch : Prop :=
  ∀ s : State,
    exec .ticTakeNmi s = .next { s with tic := { s.tic with nmi := false }, ret := .flag s.tic.nmi } ∧
    exec .ticTakeInt s = .next { s with tic := { s.tic with intr := false }, ret := .flag s.tic.intr } ∧
    exec .ticTakeReset s = .next { s with tic := { s.tic with rstreq := false }, ret := .flag s.tic.rstreq } ∧
    exec .ticTakeData s = .next { s with tic := { s.tic with vdata := 0x00 }, ret := .byte s.tic.vdata }

/-- 42_interrupt_latches.md section 2 (R144 to R147; that the host performs the INT, data and reset-request sets is the
spec's choice D19 and D20): a set raises or overwrites its own latch, and touches nothing else. -/
def Obligations.SetsWriteTheirLatch : Prop :=
  ∀ (b : Byte) (s : State),
    exec .ticSetNmi s = .next { s with tic := { s.tic with nmi := true } } ∧
    exec .ticSetInt s = .next { s with tic := { s.tic with intr := true } } ∧
    exec (.ticSetData b) s = .next { s with tic := { s.tic with vdata := b } } ∧
    exec .ticReqReset s = .next { s with tic := { s.tic with rstreq := true } }

/-- 60_exceptions.md section 2, over all transactions: which of them can raise a Boolean latch, and which can clear it.
The timer's commands, its ticks and the serial port never do. -/
def Obligations.OnlyTheirOwnTransactionsMoveTheLatches : Prop :=
  ∀ (i : Instr) (s t : State), exec i s = .next t →
    (s.tic.nmi = false → t.tic.nmi = true → i = .ticSetNmi) ∧
    (s.tic.nmi = true → t.tic.nmi = false → i = .ticTakeNmi ∨ i = .ticReset ∨ i = .ticPowerOn) ∧
    (s.tic.intr = false → t.tic.intr = true → i = .ticSetInt) ∧
    (s.tic.intr = true → t.tic.intr = false → i = .ticTakeInt ∨ i = .ticReset ∨ i = .ticPowerOn) ∧
    (s.tic.rstreq = false → t.tic.rstreq = true → i = .ticReqReset) ∧
    (s.tic.rstreq = true → t.tic.rstreq = false → i = .ticTakeReset ∨ i = .ticReset ∨ i = .ticPowerOn)

/-- 42_interrupt_latches.md section 3 (the spec's inference in R149): however many NMI events come, among any other
transactions but a take and a TIC reset, the next take returns true and the one after it false. -/
def Obligations.PendingNmisMergeIntoOne : Prop :=
  ∀ (is : List Instr) (s t : State) (rs : List Returned),
    Instr.ticSetNmi ∈ is → (∀ i ∈ is, i ≠ .ticTakeNmi ∧ i ≠ .ticReset ∧ i ≠ .ticPowerOn) →
    runAll is s = some (rs, t) →
    runAll [.ticTakeNmi, .ticTakeNmi] t =
      some ([.flag true, .flag false], { t with tic := { t.tic with nmi := false }, ret := .flag false })

/-! Serial line -/

/-- 43_serial.md section 1 (R160 and R161, with the spec's choice D16): every case of a serial-port read. With k bits
consumed, the first slot returns 0 and slot k returns bit k - 1 of the byte; the eighth read sets bit 7 and ends the
frame. -/
def Obligations.SerialReadReturnsTheNextBit : Prop :=
  ∀ (a : Half) (s : State),
    (s.tic.ttyConnected = s.tic.inputByte.getLsbD 7 →
      exec (.ticRdSer a) s =
        .next { s with tic := { s.tic with ttyConnected := !s.tic.ttyConnected }, ret := .byte 0x00 }) ∧
    (s.tic.ttyConnected = false → s.tic.inputByte.getLsbD 7 = true →
      exec (.ticRdSer a) s = .next { s with ret := .byte 0x80 }) ∧
    (s.tic.ttyConnected = true → s.tic.inputByte.getLsbD 7 = false → s.tic.inputBitsConsumed = 0 →
      exec (.ticRdSer a) s = .next { s with tic := { s.tic with inputBitsConsumed := 1 }, ret := .byte 0x00 }) ∧
    (s.tic.ttyConnected = true → s.tic.inputByte.getLsbD 7 = false → ∀ k : Fin 6,
      s.tic.inputBitsConsumed.val = k + 1 →
      exec (.ticRdSer a) s = .next { s with
        tic := { s.tic with inputBitsConsumed := ⟨k + 2, by omega⟩ },
        ret := .byte (if s.tic.inputByte.getLsbD k then 0x80 else 0x00) }) ∧
    (s.tic.ttyConnected = true → s.tic.inputByte.getLsbD 7 = false → s.tic.inputBitsConsumed = 7 →
      exec (.ticRdSer a) s = .next { s with
        tic := { s.tic with inputBitsConsumed := 0, inputByte := s.tic.inputByte ||| 0x80 },
        ret := .byte (if s.tic.inputByte.getLsbD 6 then 0x80 else 0x00) })

/-- 43_serial.md section 1 (R164, with the spec's choice D17): the host's byte replaces `inputByte` alone. -/
def Obligations.HostSetsTheInputByteAlone : Prop :=
  ∀ (b : Byte) (s : State), exec (.ticSetSid b) s = .next { s with tic := { s.tic with inputByte := b } }

/-- 43_serial.md section 3 (the spec's inference R166): from the idle line, a byte with bit 7 clear is delivered by the
first eleven reads as one edge, one 0, bits 0 to 6, one edge, idle; the line is idle again and stays so. -/
def Obligations.InputFrameDeliversSevenBits : Prop :=
  ∀ (a : Half) (c : Byte) (m : Nat) (s : State),
    s.tic.ttyConnected = false → s.tic.inputBitsConsumed = 0 → c.getLsbD 7 = false →
    runAll (.ticSetSid c :: List.replicate (11 + m) (.ticRdSer a)) s =
      some ([.byte 0x00, .byte 0x00]
          ++ (List.range 7).map (fun j => .byte (if c.getLsbD j then 0x80 else 0x00))
          ++ [.byte 0x00] ++ List.replicate (1 + m) (.byte 0x80),
        { s with tic := { s.tic with inputByte := c ||| 0x80 }, ret := .byte 0x80 })

/-- 43_serial.md section 3 (the spec's inference in R166): a byte with bit 7 set, set while the line is idle, is never
shifted in: every read returns 0x80. -/
def Obligations.ByteWithTopBitIsNeverShifted : Prop :=
  ∀ (a : Half) (c : Byte) (m : Nat) (s : State), s.tic.ttyConnected = false → c.getLsbD 7 = true →
    runAll (.ticSetSid c :: List.replicate (m + 1) (.ticRdSer a)) s =
      some (List.replicate (m + 1) (.byte 0x80), { s with tic := { s.tic with inputByte := c }, ret := .byte 0x80 })

/-- R163: a serial write with the output-enable bit clear changes nothing. -/
def Obligations.SerialWriteWithoutEnableIsIgnored : Prop :=
  ∀ (a : Half) (v : Byte) (s : State), exec (.ticWrSerOff a v) s = .next s

/-- 43_serial.md section 2 (R162, with the spec's choice D18 of an 8-bit accumulator): the accumulator moves down one
bit, bit 6 becomes the inverse of the written bit 7 or keeps the old bit 7, and bit 7 becomes 0; the eighth write of a
group appends the character and emits it. -/
def Obligations.SerialWriteShiftsOneInvertedBit : Prop :=
  ∀ (a : Half) (v : Byte) (s : State), ∃ c : Byte,
    (∀ j < 6, c.getLsbD j = s.tic.outputByte.getLsbD (j + 1)) ∧
    c.getLsbD 6 = (s.tic.outputByte.getLsbD 7 || !v.getLsbD 7) ∧ c.getLsbD 7 = false ∧
    (∀ k : Fin 7, s.tic.outputBitsAssembled.val = k →
      exec (.ticWrSerOn a v) s = .next { s with
        tic := { s.tic with outputByte := c, outputBitsAssembled := ⟨k + 1, by omega⟩ } }) ∧
    (s.tic.outputBitsAssembled = 7 →
      exec (.ticWrSerOn a v) s = .next { s with
        tic := { s.tic with
          outputByte := c, outputBitsAssembled := 0, transcript := s.tic.transcript ++ [c] },
        events := s.events ++ [.serialChar c] })

/-- 43_serial.md section 3 (the spec's inference R165): eight enabled writes from counter 0 append exactly one
character, whatever the accumulator held: the first written bit is discarded and the other seven come least
significant first, inverted. -/
def Obligations.OutputFrameAppendsOneCharacter : Prop :=
  ∀ (a : Half) (w : Fin 8 → Byte) (s : State), s.tic.outputBitsAssembled = 0 → ∃ c : Byte,
    (∀ j : Fin 7, c.getLsbD j = !(w j.succ).getLsbD 7) ∧ c.getLsbD 7 = false ∧
    runAll ((List.finRange 8).map (fun j => .ticWrSerOn a (w j))) s =
      some ([], { s with
        tic := { s.tic with outputByte := c, transcript := s.tic.transcript ++ [c] },
        events := s.events ++ [.serialChar c] })

/-- 10_state.md section 4 and 43_serial.md section 3, over all transactions: the transcript changes only where an
enabled serial write appends the accumulator, or where a TIC reset or construction empties it. -/
def Obligations.TranscriptIsAppendOnly : Prop :=
  ∀ (i : Instr) (s t : State), exec i s = .next t → t.tic.transcript ≠ s.tic.transcript →
    ((∃ a v, i = .ticWrSerOn a v) ∧ t.tic.transcript = s.tic.transcript ++ [t.tic.outputByte] ∧
      t.events = s.events ++ [.serialChar t.tic.outputByte]) ∨
    ((i = .ticReset ∨ i = .ticPowerOn) ∧ t.tic.transcript = [])

/-! Execution driver and host -/

/-- 44_driver_host.md section 2 (R186, with the spec's choice D23): the banner writes the six latches with the
configured bytes, publishes them in order, and changes nothing else. -/
def Obligations.BannerWritesTheSixLatches : Prop :=
  ∀ s : State,
    exec .dkcBanner s = .next { s with
      dkc := { s.dkc with addr := s.cfg.bannerAddr, data := s.cfg.bannerData },
      events := s.events ++
        [.latchWrite .addr 1 s.cfg.bannerAddr[0], .latchWrite .addr 2 s.cfg.bannerAddr[1],
         .latchWrite .addr 3 s.cfg.bannerAddr[2], .latchWrite .addr 4 s.cfg.bannerAddr[3],
         .latchWrite .data 1 s.cfg.bannerData[0], .latchWrite .data 2 s.cfg.bannerData[1]] }

/-- R188: a cancel sets the token, whatever the driver does. -/
def Obligations.CancelSetsTheToken : Prop :=
  ∀ s : State, exec .drvCancel s = .next { s with drv := { s.drv with cancelReq := true } }

/-- 44_driver_host.md section 3 (R189, R193): a start with a valid configuration, while the driver is halted or cancelled,
leaves the block as it is and begins an iteration. That the driver task first ends a halt exit that is under way is log
entry 10. What a valid configuration is (log entry 6: every image fits and overlaps nothing), and that now() reads
State.clock (log entry 7), are the model's choices. -/
def Obligations.StartBeginsAFreshTask : Prop :=
  ∀ s : State, s.drv.dstate ≠ .running → s.cfg.imagesFit = true →
    exec .drvStart s = .next { s with
      drv := { s.drv with
        dstate := .running, cancelReq := false, cumCycles := 0, sinceMeasure := 0, clockRateHz := none,
        startTime := s.clock, pos := if s.drv.pos.inHaltExit then s.drv.pos else .cpuEntry } }

/-- 44_driver_host.md section 4 (R192, with the spec's choice D36): while the driver is halted or cancelled, a start is
refused with the configuration error exactly when some supplied image does not fit the address space or shares an address
with a reserved region. It is the model's choice what fitting and overlapping mean, base and size against one address
space (log entry 6), and its reading of R193 that this holds in the halt exit too (log entry 10). -/
def Obligations.StartRefusesABadImage : Prop :=
  ∀ s : State, s.drv.dstate ≠ .running →
    (exec .drvStart s = .refused .configurationError ↔
      ∃ m ∈ s.cfg.images, s.cfg.spaceSize < m.base + m.size ∨
        ∃ r ∈ s.cfg.reserved, ∃ x, (m.base ≤ x ∧ x < m.base + m.size) ∧ r.base ≤ x ∧ x < r.base + r.size)

/-- 70_reset_and_hazards.md section 1 (R220 to R223, with the spec's choices D6, D9 and D22) and 44_driver_host.md section
4 (R193): what each reset leaves, while the driver is halted or cancelled. That it is admitted in the halt exit too, where
`D.dstate` is already halted, is the model's reading of R193 beside R74, R185, D23 and R235 (log entries 10 and 25). -/
def Obligations.ResetsWhileTheDriverIsNotRunning : Prop :=
  ∀ s : State, s.drv.dstate ≠ .running →
    exec .dkcReset s = .next { s with dkc := { s.dkc with keyq := [], ctrl := 0x00, fseq := 1 } } ∧
    exec .dkcPowerOn s = .next { s with
      dkc := { keyq := [], ctrl := 0x00, fseq := 1, addr := #v[0, 0, 0, 0], data := #v[0, 0] } } ∧
    ∀ i : Instr, i = .ticReset ∨ i = .ticPowerOn →
      exec i s = .next { s with
        tic := {
          period := 0x0000, count := 0x0000, tstate := .abort
          nmi := false, intr := false, rstreq := false, vdata := 0x00
          inputByte := 0x00, inputBitsConsumed := 0, ttyConnected := false
          outputByte := 0x00, outputBitsAssembled := 0, transcript := [] } }

/-- 44_driver_host.md section 4 (R193, with the spec's choice D31): the five operations that mutate shared state are
refused while the driver runs, wherever its task stands. -/
def Obligations.MutationsAreRefusedWhileRunning : Prop :=
  ∀ (i : Instr) (s : State), i.needsStoppedDriver = true → s.drv.dstate = .running →
    exec i s = .refused .driverNotStopped

/-- 60_exceptions.md section 1 and 44_driver_host.md section 4: every transaction but those five completes in every
state. -/
def Obligations.EveryOtherTransactionCompletes : Prop :=
  ∀ (i : Instr) (s : State), i.needsStoppedDriver = false → ∃ t : State, exec i s = .next t

/-- 44_driver_host.md sections 2 and 3 (R181 steps 2 to 8, R184 with the spec's choices D20 and D34, R187, R190 with its
choice D24): after a CPU step of `n` cycles that does not halt, the steps that follow account the cycles, tick the timer
once, raise NMI if it elapsed, take the reset request and call the CPU's reset for it, whether or not a cancellation
waits. With none, they then measure, which sets the cycles since the last measurement back to 0 where they have reached
10000 (R190, D24), and begin the next iteration; with one, the loop ends as cancelled, without measuring, and nothing else
has changed. That each is one step of the driver task is log entry 18, and that the calls of the CPU's reset are counted
is the model's choice (log entry 11). -/
def Obligations.IterationAfterTheCpuStep : Prop :=
  ∀ (n : Nat) (a₁ a₂ a₃ a₄ a₅ a₆ a₇ : CpuAnswer) (s : State),
    s.drv.pos = .account n → a₅.halted = false →
    (s.drv.cancelReq = false → ∃ t : State, driverRun [a₁, a₂, a₃, a₄, a₅, a₆, a₇] s = some t ∧
      t.tic = { (s.tic.tick n).2 with nmi := s.tic.nmi || (s.tic.tick n).1, rstreq := false } ∧
      t.dkc = s.dkc ∧ t.cfg = s.cfg ∧
      t.drv.pos = .cpuEntry ∧ t.drv.dstate = s.drv.dstate ∧ t.drv.cancelReq = false ∧
      t.drv.cumCycles = s.drv.cumCycles + n ∧
      t.drv.sinceMeasure = (if 10000 ≤ s.drv.sinceMeasure + n then 0 else s.drv.sinceMeasure + n) ∧
      t.drv.cpuResets = s.drv.cpuResets + (if s.tic.rstreq then 1 else 0)) ∧
    (s.drv.cancelReq = true → driverRun [a₁, a₂, a₃, a₄, a₅, a₆] s = some { s with
      tic := { (s.tic.tick n).2 with nmi := s.tic.nmi || (s.tic.tick n).1, rstreq := false },
      drv := { s.drv with
        dstate := .cancelled, pos := .terminated, cumCycles := s.drv.cumCycles + n,
        sinceMeasure := s.drv.sinceMeasure + n,
        cpuResets := s.drv.cpuResets + (if s.tic.rstreq then 1 else 0) },
      ret := .flag s.tic.rstreq })

/-- 44_driver_host.md section 2 (R183): an elapsed tick sets NMI in the same iteration. Where the driver goes on, the CPU
takes it at the start of its next step: that every step of the CPU begins with that take is the spec's choice D33 (R182),
and that the moves counted here are the driver task's steps is log entry 18. -/
def Obligations.ElapsedTickReachesTheNextPoll : Prop :=
  ∀ (n : Nat) (a₁ a₂ a₃ a₄ a₅ a₆ a₇ : CpuAnswer) (s : State),
    s.drv.pos = .tick n → (s.tic.tick n).1 = true →
    (∃ t : State, driverRun [a₁, a₂] s = some t ∧ t.tic.nmi = true ∧ t.drv.pos = .takeReset) ∧
    (s.drv.dstate = .running → s.drv.cancelReq = false → a₄.halted = false →
      ∃ t : State, driverRun [a₁, a₂, a₃, a₄, a₅, a₆, a₇] s = some t ∧
        t.ret = .flag true ∧ t.tic.nmi = false ∧ t.drv.pos = .cpuBody)

/-- 44_driver_host.md section 2 (R185, R186): where the CPU has halted, the driver leaves the loop as halted, whether or
not a cancellation waits; until BANNER_DELAY has passed its steps change nothing; then it writes the banner, notifies the
host, and ends, or goes on to the loop where a START has come meanwhile (log entry 10). How the delay is told from the
wall clock is log entry 13. -/
def Obligations.HaltExitShowsTheBanner : Prop :=
  (∀ (a : CpuAnswer) (s : State), s.drv.pos = .checkHalt → a.halted = true →
    driverMove a s = .next { s with drv := { s.drv with dstate := .halted, pos := .haltWait s.clock } }) ∧
  ∀ (a₁ a₂ a₃ : CpuAnswer) (since : Rat) (s : State), s.drv.pos = .haltWait since →
    (s.clock < since + s.cfg.bannerDelay → driverMove a₁ s = .next s) ∧
    (since + s.cfg.bannerDelay ≤ s.clock → driverRun [a₁, a₂, a₃] s = some { s with
      dkc := { s.dkc with addr := s.cfg.bannerAddr, data := s.cfg.bannerData },
      drv := { s.drv with pos := if s.drv.dstate = .running then .cpuEntry else .terminated },
      events := s.events ++
        [.latchWrite .addr 1 s.cfg.bannerAddr[0], .latchWrite .addr 2 s.cfg.bannerAddr[1],
         .latchWrite .addr 3 s.cfg.bannerAddr[2], .latchWrite .addr 4 s.cfg.bannerAddr[3],
         .latchWrite .data 1 s.cfg.bannerData[0], .latchWrite .data 2 s.cfg.bannerData[1], .halted] })

/-- 44_driver_host.md sections 1 and 2 (R187, R180): the token is read once per iteration, at step 7, where a set one ends
the loop; nothing else of the driver leaves the loop as cancelled; a driver that has ended takes no further step; and
while it has ended, a step that does not run a listed program word (log entry 12) performs an operation of KIND 3 or
changes nothing but the clock, so no bus transaction or driver operation is issued. That R74's rule for a driver that
has reached `halted` begins where its halt exit ends is log entry 25. -/
def Obligations.CancellationEndsTheLoopAtStepSeven : Prop :=
  (∀ (a : CpuAnswer) (s : State), s.drv.pos = .checkCancel → s.drv.cancelReq = true →
    driverMove a s = .next { s with drv := { s.drv with dstate := .cancelled, pos := .terminated } }) ∧
  (∀ (a : CpuAnswer) (s t : State), driverMove a s = .next t →
    s.drv.dstate ≠ .cancelled → t.drv.dstate = .cancelled →
    s.drv.pos = .checkCancel ∧ s.drv.cancelReq = true) ∧
  (∀ (as : List CpuAnswer) (s : State), s.drv.pos = .terminated → driverRun as s = some s) ∧
  ∀ s t : State, s.drv.pos = .terminated → (∀ w rest, s.inbox ≠ .word w :: rest) → step s = .next t →
    (∃ i : Instr, wordKind (encode i) = 3 ∧ exec i { s with inbox := t.inbox, draws := t.draws } = .next t) ∨
    t = { s with inbox := t.inbox, draws := t.draws, clock := t.clock }

/-- 44_driver_host.md section 3 (R190, with the spec's choice D24): the measurement at step 8. That now() reads
State.clock is the model's choice (log entry 7), and so is that the published rate is the exact quotient, with no rounding
(log entry 19). -/
def Obligations.MeasurementPublishesTheRate : Prop :=
  ∀ (a : CpuAnswer) (s : State), s.drv.pos = .measure →
    (s.drv.sinceMeasure < 10000 → driverMove a s = .next { s with drv := { s.drv with pos := .cpuEntry } }) ∧
    (10000 ≤ s.drv.sinceMeasure → s.clock ≤ s.drv.startTime →
      driverMove a s = .next { s with drv := { s.drv with sinceMeasure := 0, pos := .cpuEntry } }) ∧
    (10000 ≤ s.drv.sinceMeasure → s.drv.startTime < s.clock → ∃ hz : Rat,
      hz * (s.clock - s.drv.startTime) = s.drv.cumCycles ∧
      driverMove a s = .next { s with
        drv := { s.drv with sinceMeasure := 0, clockRateHz := some hz, pos := .cpuEntry },
        events := s.events ++ [.clockRate hz] })

/-- 20_memory.md sections 1 and 2 and 44_driver_host.md section 2 (R63, R66, R181, R182 with the spec's choice D33, with
ROUTE as log entry 5 represents it, the CPU's moves as log entry 11 does, and each of them a step of the driver task, log
entry 18): every step of the CPU begins with the NMI take, whatever the latch holds; inside it, an access of the CPU is the one bus transaction
of the controller it is routed to, and reaches nothing of the block where it is routed to none; its own takes are the take
transactions; and its return ends the step with its cycle count, which the driver then accounts. -/
def Obligations.CpuAccessIsOneBusTransaction : Prop :=
  (∀ (ans : CpuAnswer) (s : State), s.drv.pos = .cpuEntry → s.drv.dstate = .running →
    driverMove ans s = .next { s with
      tic := { s.tic with nmi := false }, drv := { s.drv with pos := .cpuBody }, ret := .flag s.tic.nmi }) ∧
  ∀ (ans : CpuAnswer) (sp : Space) (a : Half) (v : Byte) (n : Nat) (s : State), s.drv.pos = .cpuBody →
    (∀ u : BusUnit, s.cfg.routeOf sp a = some u →
      (ans.move = .load sp a → driverMove ans s = exec (busRead u a) s) ∧
      (ans.move = .store sp a v → driverMove ans s = exec (busWrite s.cfg.soeMask u a v) s)) ∧
    (s.cfg.routeOf sp a = none →
      (ans.move = .load sp a → driverMove ans s = .next s) ∧
      (ans.move = .store sp a v → driverMove ans s = .next s)) ∧
    (ans.move = .takeNmi → driverMove ans s = exec .ticTakeNmi s) ∧
    (ans.move = .takeInt → driverMove ans s = exec .ticTakeInt s) ∧
    (ans.move = .takeData → driverMove ans s = exec .ticTakeData s) ∧
    (ans.move = .ret n → driverMove ans s = .next { s with drv := { s.drv with pos := .account n } })

/-- 20_memory.md section 1 (R61, with the spec's choice D3): in a DKC window based at a multiple of 0x200, the data
register is the base, the control register is the base + 0x100, and every other address selects none. -/
def Obligations.DkcWindowRegisters : Prop :=
  ∀ base a : Half, base.toNat % 0x200 = 0 → base.toNat ≤ a.toNat → a.toNat ≤ base.toNat + 0x1FF →
    dkcSel a = if a = base then .data else if a.toNat = base.toNat + 0x100 then .ctrl else .none

/-! Encoding -/

/-- 20_memory.md section 1 (R62) and 30_encoding.md section 3 (R85, R86), over every address and byte, with the spec's
choices D10 and D14: a TIC access decodes by a[7:0] alone, a timer command by its top two bits, and a serial write by the
output-enable mask. -/
def Obligations.TicPortsSelectTheirRows : Prop :=
  ∀ (soe : Byte) (a : Half) (v : Byte),
    decode soe (busWord 1 1 a v) = .ok (
      if a.toNat % 256 = 0x20 then
        if v.toNat / 64 = 0 then .ticWrCmdNop a v
        else if v.toNat / 64 = 1 then .ticWrCmdAbort a v
        else if v.toNat / 64 = 2 then .ticWrCmdPend a v
        else .ticWrCmdStart a v
      else if a.toNat % 256 = 0x24 then .ticWrPlo a v
      else if a.toNat % 256 = 0x25 then .ticWrPhi a v
      else if a.toNat % 256 = 0xFF then if v &&& soe = 0 then .ticWrSerOff a v else .ticWrSerOn a v
      else .ticWrNone a v) ∧
    decode soe (busWord 0 1 a 0) = .ok (if a.toNat % 256 = 0xFF then .ticRdSer a else .ticRdNone a)

/-- 95_test_vectors.md section 2.1: words of the table, written out from R85, decode to their rows or are refused. -/
def Obligations.SampleWordsDecode : Prop :=
  decode 0x40 0x00180000 = .ok (.dkcRdKey 0x1800) ∧ decode 0x40 0x00180100 = .ok (.dkcRdNone 0x1801) ∧
  decode 0x40 0x10190090 = .ok (.dkcWrCtrl 0x1900 0x90) ∧ decode 0x40 0x1018FF00 = .ok (.dkcWrNone 0x18FF 0x00) ∧
  decode 0x40 0x1100203F = .ok (.ticWrCmdNop 0x0020 0x3F) ∧ decode 0x40 0x110020C0 = .ok (.ticWrCmdStart 0x0020 0xC0) ∧
  decode 0x40 0x1100FFC0 = .ok (.ticWrSerOn 0x00FF 0xC0) ∧ decode 0x40 0x1100FF80 = .ok (.ticWrSerOff 0x00FF 0x80) ∧
  decode 0x40 0x0118FF00 = .ok (.ticRdSer 0x18FF) ∧ decode 0x40 0x01002400 = .ok (.ticRdNone 0x0024) ∧
  decode 0x40 0x2100FFFF = .ok (.ticTick 0xFFFF) ∧ decode 0x40 0x21010000 = .ok .ticTakeNmi ∧
  decode 0x40 0x20060000 = .ok .dkcBanner ∧ decode 0x40 0x30100005 = .ok (.dkcKeyEnq 0x05) ∧
  decode 0x40 0x31200000 = .ok .ticReset ∧ decode 0x40 0x32310000 = .ok .drvStart ∧
  decode 0x40 0x001801FF = .error .readDataNotZero ∧ decode 0x40 0x02180000 = .error .reservedUnit ∧
  decode 0x40 0x40000000 = .error .reservedKind ∧ decode 0x40 0x21060000 = .error .noSuchOp ∧
  decode 0x40 0x30100105 = .error .argNotZero ∧ decode 0x40 0x21010001 = .error .argNotZero

/-- 30_encoding.md section 3 (R85, R86), all rows and every operand: the word of a well-formed transaction decodes to
it, under every output-enable mask. -/
def Obligations.DecodeOfEncodeIsTheTransaction : Prop :=
  ∀ (soe : Byte) (i : Instr), i.wf soe = true → decode soe (encode i) = .ok i

/-- 30_encoding.md section 3 (R86), all words: an accepted word is the word of the one transaction it decodes to, which
is well formed; no bit of it is dropped. -/
def Obligations.EncodeOfDecodeIsTheWord : Prop :=
  ∀ (soe : Byte) (w : Word) (i : Instr), decode soe w = .ok i → i.wf soe = true ∧ encode i = w

/-- 30_encoding.md section 3 (R85), all words: an accepted word has the match and mask the opcode table prints for its
row. -/
def Obligations.AcceptedWordMatchesItsTableRow : Prop :=
  ∀ (w : Word) (i : Instr), decode 0x40 w = .ok i → w &&& i.tableRow.2 = i.tableRow.1

/-- 30_encoding.md sections 3 and 4 (R86, R88, with the spec's choice D30), all words: each kind of reserved word is
refused by its name, and every other word has a transaction. The clauses are a reserved KIND; a reserved UNIT; a read
with data; a KIND, UNIT and OP that no row has; a listed one with a must-be-zero bit of ARG set; an operation's word as
its row has it; and the words of the bus accesses the CPU can perform. The names are the model's. -/
def Obligations.ReservedWordsAreRefused : Prop :=
  ∀ (w : Word) (s : State),
    (4 ≤ (wordKind w).toNat → presentWord w s = .refused (.reservedWord .reservedKind)) ∧
    ((wordKind w).toNat ≤ 1 → 2 ≤ (wordUnit w).toNat → presentWord w s = .refused (.reservedWord .reservedUnit)) ∧
    ((wordKind w).toNat ≤ 3 → 3 ≤ (wordUnit w).toNat → presentWord w s = .refused (.reservedWord .reservedUnit)) ∧
    (wordKind w = 0 → (wordUnit w).toNat ≤ 1 → wordData w ≠ 0 →
      presentWord w s = .refused (.reservedWord .readDataNotZero)) ∧
    ((wordKind w = 2 ∨ wordKind w = 3) → (wordUnit w).toNat ≤ 2 → (∀ r ∈ opRows, opSelector w ≠ opSelector r.1) →
      presentWord w s = .refused (.reservedWord .noSuchOp)) ∧
    (∀ r ∈ opRows, opSelector w = opSelector r.1 → w &&& r.2 ≠ r.1 →
      presentWord w s = .refused (.reservedWord .argNotZero)) ∧
    (∀ r ∈ opRows, w &&& r.2 = r.1 → ∃ i : Instr, i.tableRow = r ∧ presentWord w s = exec i s) ∧
    ((wordKind w).toNat ≤ 1 → (wordUnit w).toNat ≤ 1 → (wordKind w = 0 → wordData w = 0) →
      ∃ t : State, presentWord w s = .next t)

/-! The whole machine -/

/-- 30_encoding.md sections 3 and 4, for a machine whose next input is a word: a step runs exactly the transaction the
word decodes to, with the word taken from the inbox, and a reserved word is refused. It is the model's choice that the
word at the head of the inbox is what a step runs (log entry 1), and that it runs wherever the driver task stands, words
of KIND 0 to 2 too (log entry 12; R180 gives those to the driver task, whose program the listed words then are). The same
for a machine whose next input is a move of one of R180's two agents, or of the clock, which is the model's choice too: a
driver's move is the next step of its task, under the CPU's answer (log entries 1 and 11); the host's is a word of KIND 3;
and the clock's adds its amount (log entry 7). Where nothing is listed, the free value of log entry 2 acts as if listed. -/
def Obligations.StepRunsTheDecodedTransaction : Prop :=
  (∀ (w : Word) (rest : List Input) (s : State), s.inbox = .word w :: rest →
    (∀ i : Instr, decode s.cfg.soeMask w = .ok i → step s = exec i { s with inbox := rest }) ∧
    (∀ e : DecodeError, decode s.cfg.soeMask w = .error e → step s = .refused (.reservedWord e))) ∧
  (∀ (m : AgentMove) (rest : List Input) (s : State), s.inbox = .agent m :: rest →
    (∀ a : CpuAnswer, m = .driver a → step s = driverMove a { s with inbox := rest }) ∧
    (∀ (unit : BitVec 4) (op : Byte) (arg : Half), m = .host unit op arg →
      step s = presentWord (opWord 3 unit op arg) { s with inbox := rest }) ∧
    (∀ num den : Nat, m = .elapse num den →
      step s = .next { s with inbox := rest, clock := s.clock + (num : Rat) / ((den : Rat) + 1) })) ∧
  ∀ s : State, s.inbox = [] →
    step s = step { s with inbox := [.agent (Config.environment s.draws)], draws := s.draws + 1 }

/-- Every step keeps the invariant, whatever the environment does. Its clauses: `fseq` is at least 1 and the period has 14
bits (10_state.md sections 1 and 2, R22, R25, R26); the count has 14 bits (R93, with the spec's choice C5); the count of a
stopped timer is 0 (R127, with the spec's choice D13); bit 7 of the accumulator and of every character is 0 (R162, with
the spec's choice D18); the cycles since the last measurement are among those since the start (R41, R190); and the rate is
not negative (R41, R190). The others are stated in the model's own terms. That the start time is not after the clock
reads the clock of log entry 7, and the rate is the rational of log entry 19. That a banner delay began no later than the
clock reads is log entry 13. That the driver's state agrees with where its task stands (R181, R185 with D23, R187, R189)
speaks of the positions of log entry 18, and that it may be running inside a halt exit is log entry 10. -/
def Obligations.StepKeepsTheInvariant : Prop :=
  ∀ s t : State, s.Inv → step s = .next t → t.Inv

/-- 10_state.md section 8: the invariant holds at reset. The clauses about the driver's cycle counts, its rate, its start
time and its position, and about the wall clock, rest there on values the spec does not give: they are the model's choice
(log entries 8 and 7). -/
def Obligations.ResetMeetsTheInvariant : Prop :=
  State.reset.Inv

/-- 10_state.md section 8 (the table's power-on column, with the spec's choices D6, D9 and D22): the block and the
driver right after reset. -/
def Obligations.ResetLeavesThePowerOnState : Prop :=
  (State.reset.dkc.keyq = [] ∧ State.reset.dkc.ctrl = 0x00 ∧ State.reset.dkc.fseq = 1 ∧
    State.reset.dkc.addr = #v[0x00, 0x00, 0x00, 0x00] ∧ State.reset.dkc.data = #v[0x00, 0x00]) ∧
  (State.reset.tic.period = 0x0000 ∧ State.reset.tic.count = 0x0000 ∧ State.reset.tic.tstate = .abort) ∧
  (State.reset.tic.nmi = false ∧ State.reset.tic.intr = false ∧ State.reset.tic.rstreq = false ∧
    State.reset.tic.vdata = 0x00) ∧
  (State.reset.tic.inputByte = 0x00 ∧ State.reset.tic.inputBitsConsumed = 0 ∧
    State.reset.tic.ttyConnected = false ∧ State.reset.tic.outputByte = 0x00 ∧
    State.reset.tic.outputBitsAssembled = 0 ∧ State.reset.tic.transcript = []) ∧
  State.reset.drv.dstate = .cancelled ∧ State.reset.drv.cancelReq = false

/-- 30_encoding.md section 5 (R89): no step changes the parameters the machine runs under. -/
def Obligations.ParametersNeverChange : Prop :=
  ∀ s t : State, step s = .next t → t.cfg = s.cfg

/-- 00_scope.md section 5 (R14): no step takes an event out of the output history or changes one. -/
def Obligations.EventHistoryOnlyGrows : Prop :=
  ∀ s t : State, step s = .next t → s.events <+: t.events

/-- 40_display_keyboard.md section 1 (R108), over all transactions: every latch slot a transaction changes is published
with its index and its new value by an event it emits; only the construction of the DKC changes slots unpublished. -/
def Obligations.LatchChangesArePublished : Prop :=
  ∀ (i : Instr) (s t : State), exec i s = .next t →
    (i = .dkcPowerOn ∧ t.events = s.events) ∨
    ∃ es : List Event, t.events = s.events ++ es ∧
      (∀ k : Fin 4, t.dkc.addr[k] ≠ s.dkc.addr[k] → .latchWrite .addr (k + 1) t.dkc.addr[k] ∈ es) ∧
      ∀ k : Fin 2, t.dkc.data[k] ≠ s.dkc.data[k] → .latchWrite .data (k + 1) t.dkc.data[k] ∈ es

/-- 00_scope.md section 5 (R12): a transaction of one controller leaves the other controller and the driver as they
are, and a driver operation of the host leaves both controllers; the unit is the UNIT field of the word. -/
def Obligations.TransactionsTouchOnlyTheirUnit : Prop :=
  ∀ (i : Instr) (s t : State), exec i s = .next t →
    (wordUnit (encode i) ≠ 0 → t.dkc = s.dkc) ∧ (wordUnit (encode i) ≠ 1 → t.tic = s.tic) ∧
    (wordUnit (encode i) ≠ 2 → t.drv = s.drv)

/-- 20_memory.md section 4 (R72): a latch write is an event of the DKC and a serial character one of the TIC, and a host
observer may see the two in either order, whichever came first. In general it may see two neighbouring events of different
sources in either order, and two different ones of the same source only in theirs. It is the model's choice (log entry 16)
that the driver's own events have a third source, and that an observer sees every event of each source once. -/
def Obligations.HostSeesNoOrderAcrossControllers : Prop :=
  (∀ (field : Machine.Field) (index : Nat) (g c : Byte) (hz : Rat),
    (Event.latchWrite field index g).source = .dkc ∧ (Event.serialChar c).source = .tic ∧
    (Event.clockRate hz).source = .driver ∧ Event.halted.source = .driver) ∧
  (∀ (before after : List Event) (field : Machine.Field) (index : Nat) (g c : Byte),
    hostMaySee (before ++ .latchWrite field index g :: .serialChar c :: after)
      (before ++ .serialChar c :: .latchWrite field index g :: after) ∧
    hostMaySee (before ++ .serialChar c :: .latchWrite field index g :: after)
      (before ++ .latchWrite field index g :: .serialChar c :: after)) ∧
  ∀ (before after : List Event) (x y : Event),
    (x.source ≠ y.source → hostMaySee (before ++ x :: y :: after) (before ++ y :: x :: after)) ∧
    (x.source = y.source → x ≠ y → ¬ hostMaySee (before ++ x :: y :: after) (before ++ y :: x :: after))
end

