-- ==== Sys2Proof/Laws/State.lean ====
section
/-! SUPPORT. One lemma per field per named update of the state, and of the TIC, each true by unfolding. -/

namespace Sys2Proof.Machine

@[simp] theorem State.withDkc_dkc (s : State) (d : Dkc) : (s.withDkc d).dkc = d := rfl
@[simp] theorem State.withDkc_tic (s : State) (d : Dkc) : (s.withDkc d).tic = s.tic := rfl
@[simp] theorem State.withDkc_drv (s : State) (d : Dkc) : (s.withDkc d).drv = s.drv := rfl
@[simp] theorem State.withDkc_events (s : State) (d : Dkc) : (s.withDkc d).events = s.events := rfl
@[simp] theorem State.withDkc_cfg (s : State) (d : Dkc) : (s.withDkc d).cfg = s.cfg := rfl
@[simp] theorem State.withDkc_ret (s : State) (d : Dkc) : (s.withDkc d).ret = s.ret := rfl
@[simp] theorem State.withDkc_inbox (s : State) (d : Dkc) : (s.withDkc d).inbox = s.inbox := rfl
@[simp] theorem State.withDkc_draws (s : State) (d : Dkc) : (s.withDkc d).draws = s.draws := rfl
@[simp] theorem State.withDkc_clock (s : State) (d : Dkc) : (s.withDkc d).clock = s.clock := rfl

@[simp] theorem State.withTic_dkc (s : State) (t : Tic) : (s.withTic t).dkc = s.dkc := rfl
@[simp] theorem State.withTic_tic (s : State) (t : Tic) : (s.withTic t).tic = t := rfl
@[simp] theorem State.withTic_drv (s : State) (t : Tic) : (s.withTic t).drv = s.drv := rfl
@[simp] theorem State.withTic_events (s : State) (t : Tic) : (s.withTic t).events = s.events := rfl
@[simp] theorem State.withTic_cfg (s : State) (t : Tic) : (s.withTic t).cfg = s.cfg := rfl
@[simp] theorem State.withTic_ret (s : State) (t : Tic) : (s.withTic t).ret = s.ret := rfl
@[simp] theorem State.withTic_inbox (s : State) (t : Tic) : (s.withTic t).inbox = s.inbox := rfl
@[simp] theorem State.withTic_draws (s : State) (t : Tic) : (s.withTic t).draws = s.draws := rfl
@[simp] theorem State.withTic_clock (s : State) (t : Tic) : (s.withTic t).clock = s.clock := rfl

@[simp] theorem State.withDrv_dkc (s : State) (d : Driver) : (s.withDrv d).dkc = s.dkc := rfl
@[simp] theorem State.withDrv_tic (s : State) (d : Driver) : (s.withDrv d).tic = s.tic := rfl
@[simp] theorem State.withDrv_drv (s : State) (d : Driver) : (s.withDrv d).drv = d := rfl
@[simp] theorem State.withDrv_events (s : State) (d : Driver) : (s.withDrv d).events = s.events := rfl
@[simp] theorem State.withDrv_cfg (s : State) (d : Driver) : (s.withDrv d).cfg = s.cfg := rfl
@[simp] theorem State.withDrv_ret (s : State) (d : Driver) : (s.withDrv d).ret = s.ret := rfl
@[simp] theorem State.withDrv_inbox (s : State) (d : Driver) : (s.withDrv d).inbox = s.inbox := rfl
@[simp] theorem State.withDrv_draws (s : State) (d : Driver) : (s.withDrv d).draws = s.draws := rfl
@[simp] theorem State.withDrv_clock (s : State) (d : Driver) : (s.withDrv d).clock = s.clock := rfl

@[simp] theorem State.returning_dkc (s : State) (r : Returned) : (s.returning r).dkc = s.dkc := rfl
@[simp] theorem State.returning_tic (s : State) (r : Returned) : (s.returning r).tic = s.tic := rfl
@[simp] theorem State.returning_drv (s : State) (r : Returned) : (s.returning r).drv = s.drv := rfl
@[simp] theorem State.returning_events (s : State) (r : Returned) : (s.returning r).events = s.events := rfl
@[simp] theorem State.returning_cfg (s : State) (r : Returned) : (s.returning r).cfg = s.cfg := rfl
@[simp] theorem State.returning_ret (s : State) (r : Returned) : (s.returning r).ret = r := rfl
@[simp] theorem State.returning_inbox (s : State) (r : Returned) : (s.returning r).inbox = s.inbox := rfl
@[simp] theorem State.returning_draws (s : State) (r : Returned) : (s.returning r).draws = s.draws := rfl
@[simp] theorem State.returning_clock (s : State) (r : Returned) : (s.returning r).clock = s.clock := rfl

@[simp] theorem State.emit_dkc (s : State) (e : Event) : (s.emit e).dkc = s.dkc := rfl
@[simp] theorem State.emit_tic (s : State) (e : Event) : (s.emit e).tic = s.tic := rfl
@[simp] theorem State.emit_drv (s : State) (e : Event) : (s.emit e).drv = s.drv := rfl
@[simp] theorem State.emit_events (s : State) (e : Event) : (s.emit e).events = s.events ++ [e] := rfl
@[simp] theorem State.emit_cfg (s : State) (e : Event) : (s.emit e).cfg = s.cfg := rfl
@[simp] theorem State.emit_ret (s : State) (e : Event) : (s.emit e).ret = s.ret := rfl
@[simp] theorem State.emit_inbox (s : State) (e : Event) : (s.emit e).inbox = s.inbox := rfl
@[simp] theorem State.emit_draws (s : State) (e : Event) : (s.emit e).draws = s.draws := rfl
@[simp] theorem State.emit_clock (s : State) (e : Event) : (s.emit e).clock = s.clock := rfl

@[simp] theorem State.goto_dkc (s : State) (p : Position) : (s.goto p).dkc = s.dkc := rfl
@[simp] theorem State.goto_tic (s : State) (p : Position) : (s.goto p).tic = s.tic := rfl
@[simp] theorem State.goto_drv (s : State) (p : Position) : (s.goto p).drv = { s.drv with pos := p } := rfl
@[simp] theorem State.goto_events (s : State) (p : Position) : (s.goto p).events = s.events := rfl
@[simp] theorem State.goto_cfg (s : State) (p : Position) : (s.goto p).cfg = s.cfg := rfl
@[simp] theorem State.goto_ret (s : State) (p : Position) : (s.goto p).ret = s.ret := rfl
@[simp] theorem State.goto_inbox (s : State) (p : Position) : (s.goto p).inbox = s.inbox := rfl
@[simp] theorem State.goto_draws (s : State) (p : Position) : (s.goto p).draws = s.draws := rfl
@[simp] theorem State.goto_clock (s : State) (p : Position) : (s.goto p).clock = s.clock := rfl

@[simp] theorem Tic.withNmi_period (t : Tic) (b : Bool) : (t.withNmi b).period = t.period := rfl
@[simp] theorem Tic.withNmi_count (t : Tic) (b : Bool) : (t.withNmi b).count = t.count := rfl
@[simp] theorem Tic.withNmi_tstate (t : Tic) (b : Bool) : (t.withNmi b).tstate = t.tstate := rfl
@[simp] theorem Tic.withNmi_nmi (t : Tic) (b : Bool) : (t.withNmi b).nmi = b := rfl
@[simp] theorem Tic.withNmi_intr (t : Tic) (b : Bool) : (t.withNmi b).intr = t.intr := rfl
@[simp] theorem Tic.withNmi_rstreq (t : Tic) (b : Bool) : (t.withNmi b).rstreq = t.rstreq := rfl
@[simp] theorem Tic.withNmi_vdata (t : Tic) (b : Bool) : (t.withNmi b).vdata = t.vdata := rfl
@[simp] theorem Tic.withNmi_inputByte (t : Tic) (b : Bool) : (t.withNmi b).inputByte = t.inputByte := rfl
@[simp] theorem Tic.withNmi_inputBitsConsumed (t : Tic) (b : Bool) : (t.withNmi b).inputBitsConsumed = t.inputBitsConsumed := rfl
@[simp] theorem Tic.withNmi_ttyConnected (t : Tic) (b : Bool) : (t.withNmi b).ttyConnected = t.ttyConnected := rfl
@[simp] theorem Tic.withNmi_outputByte (t : Tic) (b : Bool) : (t.withNmi b).outputByte = t.outputByte := rfl
@[simp] theorem Tic.withNmi_outputBitsAssembled (t : Tic) (b : Bool) : (t.withNmi b).outputBitsAssembled = t.outputBitsAssembled := rfl
@[simp] theorem Tic.withNmi_transcript (t : Tic) (b : Bool) : (t.withNmi b).transcript = t.transcript := rfl

@[simp] theorem Tic.withIntr_period (t : Tic) (b : Bool) : (t.withIntr b).period = t.period := rfl
@[simp] theorem Tic.withIntr_count (t : Tic) (b : Bool) : (t.withIntr b).count = t.count := rfl
@[simp] theorem Tic.withIntr_tstate (t : Tic) (b : Bool) : (t.withIntr b).tstate = t.tstate := rfl
@[simp] theorem Tic.withIntr_nmi (t : Tic) (b : Bool) : (t.withIntr b).nmi = t.nmi := rfl
@[simp] theorem Tic.withIntr_intr (t : Tic) (b : Bool) : (t.withIntr b).intr = b := rfl
@[simp] theorem Tic.withIntr_rstreq (t : Tic) (b : Bool) : (t.withIntr b).rstreq = t.rstreq := rfl
@[simp] theorem Tic.withIntr_vdata (t : Tic) (b : Bool) : (t.withIntr b).vdata = t.vdata := rfl
@[simp] theorem Tic.withIntr_inputByte (t : Tic) (b : Bool) : (t.withIntr b).inputByte = t.inputByte := rfl
@[simp] theorem Tic.withIntr_inputBitsConsumed (t : Tic) (b : Bool) : (t.withIntr b).inputBitsConsumed = t.inputBitsConsumed := rfl
@[simp] theorem Tic.withIntr_ttyConnected (t : Tic) (b : Bool) : (t.withIntr b).ttyConnected = t.ttyConnected := rfl
@[simp] theorem Tic.withIntr_outputByte (t : Tic) (b : Bool) : (t.withIntr b).outputByte = t.outputByte := rfl
@[simp] theorem Tic.withIntr_outputBitsAssembled (t : Tic) (b : Bool) : (t.withIntr b).outputBitsAssembled = t.outputBitsAssembled := rfl
@[simp] theorem Tic.withIntr_transcript (t : Tic) (b : Bool) : (t.withIntr b).transcript = t.transcript := rfl

@[simp] theorem Tic.withRstreq_period (t : Tic) (b : Bool) : (t.withRstreq b).period = t.period := rfl
@[simp] theorem Tic.withRstreq_count (t : Tic) (b : Bool) : (t.withRstreq b).count = t.count := rfl
@[simp] theorem Tic.withRstreq_tstate (t : Tic) (b : Bool) : (t.withRstreq b).tstate = t.tstate := rfl
@[simp] theorem Tic.withRstreq_nmi (t : Tic) (b : Bool) : (t.withRstreq b).nmi = t.nmi := rfl
@[simp] theorem Tic.withRstreq_intr (t : Tic) (b : Bool) : (t.withRstreq b).intr = t.intr := rfl
@[simp] theorem Tic.withRstreq_rstreq (t : Tic) (b : Bool) : (t.withRstreq b).rstreq = b := rfl
@[simp] theorem Tic.withRstreq_vdata (t : Tic) (b : Bool) : (t.withRstreq b).vdata = t.vdata := rfl
@[simp] theorem Tic.withRstreq_inputByte (t : Tic) (b : Bool) : (t.withRstreq b).inputByte = t.inputByte := rfl
@[simp] theorem Tic.withRstreq_inputBitsConsumed (t : Tic) (b : Bool) : (t.withRstreq b).inputBitsConsumed = t.inputBitsConsumed := rfl
@[simp] theorem Tic.withRstreq_ttyConnected (t : Tic) (b : Bool) : (t.withRstreq b).ttyConnected = t.ttyConnected := rfl
@[simp] theorem Tic.withRstreq_outputByte (t : Tic) (b : Bool) : (t.withRstreq b).outputByte = t.outputByte := rfl
@[simp] theorem Tic.withRstreq_outputBitsAssembled (t : Tic) (b : Bool) : (t.withRstreq b).outputBitsAssembled = t.outputBitsAssembled := rfl
@[simp] theorem Tic.withRstreq_transcript (t : Tic) (b : Bool) : (t.withRstreq b).transcript = t.transcript := rfl

@[simp] theorem Tic.withVdata_period (t : Tic) (v : Byte) : (t.withVdata v).period = t.period := rfl
@[simp] theorem Tic.withVdata_count (t : Tic) (v : Byte) : (t.withVdata v).count = t.count := rfl
@[simp] theorem Tic.withVdata_tstate (t : Tic) (v : Byte) : (t.withVdata v).tstate = t.tstate := rfl
@[simp] theorem Tic.withVdata_nmi (t : Tic) (v : Byte) : (t.withVdata v).nmi = t.nmi := rfl
@[simp] theorem Tic.withVdata_intr (t : Tic) (v : Byte) : (t.withVdata v).intr = t.intr := rfl
@[simp] theorem Tic.withVdata_rstreq (t : Tic) (v : Byte) : (t.withVdata v).rstreq = t.rstreq := rfl
@[simp] theorem Tic.withVdata_vdata (t : Tic) (v : Byte) : (t.withVdata v).vdata = v := rfl
@[simp] theorem Tic.withVdata_inputByte (t : Tic) (v : Byte) : (t.withVdata v).inputByte = t.inputByte := rfl
@[simp] theorem Tic.withVdata_inputBitsConsumed (t : Tic) (v : Byte) : (t.withVdata v).inputBitsConsumed = t.inputBitsConsumed := rfl
@[simp] theorem Tic.withVdata_ttyConnected (t : Tic) (v : Byte) : (t.withVdata v).ttyConnected = t.ttyConnected := rfl
@[simp] theorem Tic.withVdata_outputByte (t : Tic) (v : Byte) : (t.withVdata v).outputByte = t.outputByte := rfl
@[simp] theorem Tic.withVdata_outputBitsAssembled (t : Tic) (v : Byte) : (t.withVdata v).outputBitsAssembled = t.outputBitsAssembled := rfl
@[simp] theorem Tic.withVdata_transcript (t : Tic) (v : Byte) : (t.withVdata v).transcript = t.transcript := rfl

@[simp] theorem Tic.withTstate_period (t : Tic) (x : TimerState) : (t.withTstate x).period = t.period := rfl
@[simp] theorem Tic.withTstate_count (t : Tic) (x : TimerState) : (t.withTstate x).count = t.count := rfl
@[simp] theorem Tic.withTstate_tstate (t : Tic) (x : TimerState) : (t.withTstate x).tstate = x := rfl
@[simp] theorem Tic.withTstate_nmi (t : Tic) (x : TimerState) : (t.withTstate x).nmi = t.nmi := rfl
@[simp] theorem Tic.withTstate_intr (t : Tic) (x : TimerState) : (t.withTstate x).intr = t.intr := rfl
@[simp] theorem Tic.withTstate_rstreq (t : Tic) (x : TimerState) : (t.withTstate x).rstreq = t.rstreq := rfl
@[simp] theorem Tic.withTstate_vdata (t : Tic) (x : TimerState) : (t.withTstate x).vdata = t.vdata := rfl
@[simp] theorem Tic.withTstate_inputByte (t : Tic) (x : TimerState) : (t.withTstate x).inputByte = t.inputByte := rfl
@[simp] theorem Tic.withTstate_inputBitsConsumed (t : Tic) (x : TimerState) : (t.withTstate x).inputBitsConsumed = t.inputBitsConsumed := rfl
@[simp] theorem Tic.withTstate_ttyConnected (t : Tic) (x : TimerState) : (t.withTstate x).ttyConnected = t.ttyConnected := rfl
@[simp] theorem Tic.withTstate_outputByte (t : Tic) (x : TimerState) : (t.withTstate x).outputByte = t.outputByte := rfl
@[simp] theorem Tic.withTstate_outputBitsAssembled (t : Tic) (x : TimerState) : (t.withTstate x).outputBitsAssembled = t.outputBitsAssembled := rfl
@[simp] theorem Tic.withTstate_transcript (t : Tic) (x : TimerState) : (t.withTstate x).transcript = t.transcript := rfl

@[simp] theorem Tic.reload_period (t : Tic) : (t.reload).period = t.period := rfl
@[simp] theorem Tic.reload_count (t : Tic) : (t.reload).count = t.period := rfl
@[simp] theorem Tic.reload_tstate (t : Tic) : (t.reload).tstate = t.tstate := rfl
@[simp] theorem Tic.reload_nmi (t : Tic) : (t.reload).nmi = t.nmi := rfl
@[simp] theorem Tic.reload_intr (t : Tic) : (t.reload).intr = t.intr := rfl
@[simp] theorem Tic.reload_rstreq (t : Tic) : (t.reload).rstreq = t.rstreq := rfl
@[simp] theorem Tic.reload_vdata (t : Tic) : (t.reload).vdata = t.vdata := rfl
@[simp] theorem Tic.reload_inputByte (t : Tic) : (t.reload).inputByte = t.inputByte := rfl
@[simp] theorem Tic.reload_inputBitsConsumed (t : Tic) : (t.reload).inputBitsConsumed = t.inputBitsConsumed := rfl
@[simp] theorem Tic.reload_ttyConnected (t : Tic) : (t.reload).ttyConnected = t.ttyConnected := rfl
@[simp] theorem Tic.reload_outputByte (t : Tic) : (t.reload).outputByte = t.outputByte := rfl
@[simp] theorem Tic.reload_outputBitsAssembled (t : Tic) : (t.reload).outputBitsAssembled = t.outputBitsAssembled := rfl
@[simp] theorem Tic.reload_transcript (t : Tic) : (t.reload).transcript = t.transcript := rfl

end Sys2Proof.Machine
end

