-- ==== Sys2Proof/Laws/Ops.lean ====
section
/-! SUPPORT. One lemma per shared operation: everything it can do. -/

namespace Sys2Proof.Machine

/-- A key read empties nothing but the head of the queue (R101). -/
theorem dequeueKey_cases (s : State) :
    (s.dkc.keyq = [] ∧ dequeueKey s = { s with ret := .byte 0x00 }) ∨
    ∃ k q, s.dkc.keyq = k :: q ∧ dequeueKey s = { s with dkc := { s.dkc with keyq := q }, ret := .byte k } := by
  cases h : s.dkc.keyq with
  | nil => exact .inl ⟨rfl, by simp only [dequeueKey, h]; rfl⟩
  | cons k q => exact .inr ⟨k, q, rfl, by simp only [dequeueKey, h]; rfl⟩

/-- An address fill in range stores, publishes and counts (R104). -/
theorem fillAddr_inRange (v : Byte) (s : State) (i : Fin 4) (h : s.dkc.fseq = i + 1) :
    fillAddr v s = { s with
      dkc := { s.dkc with addr := s.dkc.addr.set i (glyph v), fseq := i + 2 },
      events := s.events ++ [.latchWrite .addr (i + 1) (glyph v)] } := by
  have range : 1 ≤ s.dkc.fseq ∧ s.dkc.fseq ≤ 4 := by omega
  have slot : (⟨s.dkc.fseq - 1, by omega⟩ : Fin 4) = i := Fin.ext (by simp [h])
  rw [fillAddr, dif_pos range, slot]
  simp [advanceFseq, writeAddrLatch, State.withDkc, State.emit, h]

/-- An address fill out of range only counts (R104). -/
theorem fillAddr_outOfRange (v : Byte) (s : State) (h : s.dkc.fseq = 0 ∨ 5 ≤ s.dkc.fseq) :
    fillAddr v s = { s with dkc := { s.dkc with fseq := s.dkc.fseq + 1 } } := by
  rw [fillAddr, dif_neg (by omega)]
  rfl

/-- A data fill in range stores, publishes and counts (R104). -/
theorem fillData_inRange (v : Byte) (s : State) (i : Fin 2) (h : s.dkc.fseq = i + 1) :
    fillData v s = { s with
      dkc := { s.dkc with data := s.dkc.data.set i (glyph v), fseq := i + 2 },
      events := s.events ++ [.latchWrite .data (i + 1) (glyph v)] } := by
  have range : 1 ≤ s.dkc.fseq ∧ s.dkc.fseq ≤ 2 := by omega
  have slot : (⟨s.dkc.fseq - 1, by omega⟩ : Fin 2) = i := Fin.ext (by simp [h])
  rw [fillData, dif_pos range, slot]
  simp [advanceFseq, writeDataLatch, State.withDkc, State.emit, h]

/-- A data fill out of range only counts (R104). -/
theorem fillData_outOfRange (v : Byte) (s : State) (h : s.dkc.fseq = 0 ∨ 3 ≤ s.dkc.fseq) :
    fillData v s = { s with dkc := { s.dkc with fseq := s.dkc.fseq + 1 } } := by
  rw [fillData, dif_neg (by omega)]
  rfl

/-- A data-register write does nothing, only counts, or fills one slot (R104). -/
theorem displayWrite_cases (v : Byte) (s : State) :
    displayWrite v s = s ∨
    displayWrite v s = { s with dkc := { s.dkc with fseq := s.dkc.fseq + 1 } } ∨
    (∃ i : Fin 4, s.dkc.fseq = i + 1 ∧ displayWrite v s = { s with
      dkc := { s.dkc with addr := s.dkc.addr.set i (glyph v), fseq := i + 2 },
      events := s.events ++ [.latchWrite .addr (i + 1) (glyph v)] }) ∨
    ∃ i : Fin 2, s.dkc.fseq = i + 1 ∧ displayWrite v s = { s with
      dkc := { s.dkc with data := s.dkc.data.set i (glyph v), fseq := i + 2 },
      events := s.events ++ [.latchWrite .data (i + 1) (glyph v)] } := by
  unfold displayWrite
  split
  · by_cases h : 1 ≤ s.dkc.fseq ∧ s.dkc.fseq ≤ 4
    · have slot : s.dkc.fseq = (⟨s.dkc.fseq - 1, by omega⟩ : Fin 4) + 1 := by simp; omega
      exact .inr (.inr (.inl ⟨_, slot, fillAddr_inRange v s _ slot⟩))
    · exact .inr (.inl (fillAddr_outOfRange v s (by omega)))
  · split
    · by_cases h : 1 ≤ s.dkc.fseq ∧ s.dkc.fseq ≤ 2
      · have slot : s.dkc.fseq = (⟨s.dkc.fseq - 1, by omega⟩ : Fin 2) + 1 := by simp; omega
        exact .inr (.inr (.inr ⟨_, slot, fillData_inRange v s _ slot⟩))
      · exact .inr (.inl (fillData_outOfRange v s (by omega)))
    · exact .inl rfl

/-- The banner changes the two latch groups and adds six events of the DKC (R186). -/
theorem writeBanner_frame (s : State) :
    ∃ (addr : Vector Byte 4) (data : Vector Byte 2) (es : List Event),
      writeBanner s = { s with dkc := { s.dkc with addr := addr, data := data }, events := s.events ++ es } :=
  ⟨_, _, [.latchWrite .addr 1 s.cfg.bannerAddr[0], .latchWrite .addr 2 s.cfg.bannerAddr[1],
      .latchWrite .addr 3 s.cfg.bannerAddr[2], .latchWrite .addr 4 s.cfg.bannerAddr[3],
      .latchWrite .data 1 s.cfg.bannerData[0], .latchWrite .data 2 s.cfg.bannerData[1]], by
    simp [writeBanner, writeAddrLatch, writeDataLatch, State.withDkc, State.emit]
    exact ⟨rfl, rfl⟩⟩

/-- The decrement loop ends before the count is exhausted, or at the unit that exhausts it (R127). -/
theorem Tic.countDown_cases (n : Nat) (t : Tic) :
    (∃ c : Half, c.toNat ≤ t.count.toNat ∧ t.countDown n = (false, { t with count := c })) ∨
    ∃ c : Half, c.toNat ≤ 1 ∧ t.countDown n = (true, { t with count := c }.exhaust) := by
  induction n generalizing t with
  | zero => exact .inl ⟨t.count, Nat.le_refl _, rfl⟩
  | succ n ih =>
    rw [Tic.countDown]
    split
    · exact .inr ⟨t.count, ‹_›, rfl⟩
    · rcases ih { t with count := t.count - 1 } with ⟨c, hc, h⟩ | ⟨c, hc, h⟩
      · refine .inl ⟨c, ?_, by rw [h]⟩
        have less : (t.count - 1).toNat ≤ t.count.toNat := by
          have one : (1 : Half).toNat = 1 := rfl
          rw [BitVec.toNat_sub_of_le (by rw [BitVec.le_def]; omega)]
          omega
        exact Nat.le_trans hc less
      · exact .inr ⟨c, hc, by rw [h]⟩

/-- TICK leaves the timer as it is, counts down, reloads with elapsed in `started`, or stops with elapsed in `pending`
(41_timer.md section 1, the tick rows). -/
theorem Tic.tick_cases (n : Nat) (t : Tic) :
    t.tick n = (false, t) ∨
    ((t.tstate = .started ∨ t.tstate = .pending) ∧
      ∃ c : Half, c.toNat ≤ t.count.toNat ∧ t.tick n = (false, { t with count := c })) ∨
    (t.tstate = .started ∧ t.tick n = (true, { t with count := t.period })) ∨
    (t.tstate = .pending ∧ t.tick n = (true, { t with count := 0, tstate := .stopped })) := by
  unfold Tic.tick
  cases h : t.tstate with
  | started =>
    rcases t.countDown_cases n with ⟨c, hc, e⟩ | ⟨c, _, e⟩
    · exact .inr (.inl ⟨.inl rfl, c, hc, by simp only [e, h]⟩)
    · exact .inr (.inr (.inl ⟨rfl, by simp [e, Tic.exhaust, Tic.reload, h]⟩))
  | pending =>
    rcases t.countDown_cases n with ⟨c, hc, e⟩ | ⟨c, _, e⟩
    · exact .inr (.inl ⟨.inr rfl, c, hc, by simp only [e, h]⟩)
    · exact .inr (.inr (.inr ⟨rfl, by simp [e, Tic.exhaust, h]⟩))
  | stopped => exact .inl rfl
  | abort => exact .inl rfl

/-- TICK as a transaction changes the timer alone, and returns whether it elapsed (R127). -/
theorem tickTimer_eq (n : Nat) (s : State) :
    tickTimer n s = { s with tic := (s.tic.tick n).2, ret := .flag (s.tic.tick n).1 } := rfl

/-- A serial read toggles the connect flag, is idle, or shifts (R161). -/
theorem serialRead_cases (s : State) :
    (s.tic.edge = true ∧
      serialRead s = { s with tic := { s.tic with ttyConnected := !s.tic.ttyConnected }, ret := .byte 0x00 }) ∨
    (s.tic.edge = false ∧ s.tic.inputTop = true ∧ serialRead s = { s with ret := .byte 0x80 }) ∨
    (s.tic.edge = false ∧ s.tic.inputTop = false ∧
      serialRead s = { s with
        tic := s.tic.shiftIn, ret := .byte (serialShiftIn s.tic.inputByte s.tic.inputBitsConsumed) }) := by
  unfold serialRead
  cases s.tic.edge with
  | true => exact .inl ⟨rfl, rfl⟩
  | false =>
    cases s.tic.inputTop with
    | true => exact .inr (.inl ⟨rfl, rfl, rfl⟩)
    | false => exact .inr (.inr ⟨rfl, rfl, rfl⟩)

/-- A shifting read changes the counter, and at the eighth bit the byte (R161). -/
theorem Tic.shiftIn_cases (t : Tic) :
    (t.inputBitsConsumed = 7 ∧
      t.shiftIn = { t with inputByte := t.inputByte ||| 0x80#8, inputBitsConsumed := 0 }) ∨
    (t.inputBitsConsumed ≠ 7 ∧ t.shiftIn = { t with inputBitsConsumed := t.inputBitsConsumed + 1 }) := by
  unfold Tic.shiftIn
  by_cases h : t.inputBitsConsumed = 7
  · exact .inl ⟨h, by rw [if_pos (by rw [h]; rfl)]⟩
  · exact .inr ⟨h, by rw [if_neg (fun e => h (Fin.ext (by simpa using e)))]⟩

/-- An enabled serial write shifts one bit, and at the eighth of a group appends the character (R162). -/
theorem serialWrite_cases (v : Byte) (s : State) :
    (s.tic.outputBitsAssembled ≠ 7 ∧ serialWrite v s = { s with
      tic := { s.tic with
        outputByte := serialShiftOut s.tic.outputByte v,
        outputBitsAssembled := s.tic.outputBitsAssembled + 1 } }) ∨
    (s.tic.outputBitsAssembled = 7 ∧ serialWrite v s = { s with
      tic := { s.tic with
        outputByte := serialShiftOut s.tic.outputByte v, outputBitsAssembled := 0,
        transcript := s.tic.transcript ++ [serialShiftOut s.tic.outputByte v] },
      events := s.events ++ [.serialChar (serialShiftOut s.tic.outputByte v)] }) := by
  unfold serialWrite
  by_cases h : s.tic.outputBitsAssembled = 7
  · exact .inr ⟨h, by rw [if_pos (by rw [h]; rfl)]; rfl⟩
  · exact .inl ⟨h, by rw [if_neg (fun e => h (Fin.ext (by simpa using e)))]; rfl⟩

/-- A write of an unassigned TIC port changes nothing, or the vector data where it is the data-latch port. -/
theorem unassignedPortWrite_cases (a : Half) (v : Byte) (s : State) :
    (s.cfg.dataLatchPort ≠ some (ticPort a) ∧ unassignedPortWrite a v s = s) ∨
    (s.cfg.dataLatchPort = some (ticPort a) ∧
      unassignedPortWrite a v s = { s with tic := { s.tic with vdata := v } }) := by
  unfold unassignedPortWrite
  by_cases h : s.cfg.dataLatchPort = some (ticPort a)
  · exact .inr ⟨h, by rw [if_pos h]; rfl⟩
  · exact .inl ⟨h, by rw [if_neg h]⟩

/-- The measurement does nothing before the threshold; past it, it publishes a rate if time has passed (R190). -/
theorem measureRate_cases (t : Rat) (s : State) :
    (s.drv.sinceMeasure < clockMeasureCycles ∧ measureRate t s = s) ∨
    (clockMeasureCycles ≤ s.drv.sinceMeasure ∧ t ≤ 0 ∧
      measureRate t s = { s with drv := { s.drv with sinceMeasure := 0 } }) ∨
    (clockMeasureCycles ≤ s.drv.sinceMeasure ∧ 0 < t ∧ measureRate t s = { s with
      drv := { s.drv with sinceMeasure := 0, clockRateHz := some (s.drv.cumCycles / t) },
      events := s.events ++ [.clockRate (s.drv.cumCycles / t)] }) := by
  unfold measureRate
  by_cases h : clockMeasureCycles ≤ s.drv.sinceMeasure
  · by_cases ht : 0 < t
    · exact .inr (.inr ⟨h, ht, by rw [if_pos h]; simp [ht, State.withDrv, State.emit]⟩)
    · exact .inr (.inl ⟨h, not_lt.mp ht, by rw [if_pos h]; simp [ht, State.withDrv]⟩)
  · exact .inl ⟨Nat.lt_of_not_le h, by rw [if_neg h]⟩

/-- What admits the operations that mutate shared state (R193). -/
theorem Driver.stopped_iff (d : Driver) : d.stopped = true ↔ d.dstate ≠ .running := by
  simp [Driver.stopped]

/-- A START keeps a halt exit under way, and begins an iteration otherwise (R189). -/
theorem Position.afterStart_cases (p : Position) :
    (p.inHaltExit = true ∧ p.afterStart = p) ∨ (p.inHaltExit = false ∧ p.afterStart = .cpuEntry) := by
  cases p <;> simp [Position.afterStart, Position.inHaltExit]

/-- An operation admitted only while the driver is halted or cancelled (R193). -/
theorem whenStopped_next {s t u : State} (h : whenStopped s t = .next u) : s.drv.stopped = true ∧ u = t := by
  unfold whenStopped at h
  split at h
  · exact ⟨‹_›, (Host.Outcome.next.inj h).symm⟩
  · cases h

/-- A start that answers a next state was admitted, with a valid configuration (R189). -/
theorem execDrvStart_next {s t : State} (h : execDrvStart s = .next t) :
    s.drv.stopped = true ∧ s.cfg.imagesFit = true ∧ t = { s with drv := s.drv.start s.clock } := by
  unfold execDrvStart at h
  split at h
  · split at h
    · exact ⟨‹_›, ‹_›, (Host.Outcome.next.inj h).symm⟩
    · cases h
  · cases h

end Sys2Proof.Machine
end

