-- ==== Sys2Proof/Laws/Word.lean ====
section
/-! SUPPORT. The fields of a transaction word as numbers, and what the field readers give on an assembled word. -/

namespace Sys2Proof.Laws

theorem toNat_append {m n : Nat} (x : BitVec m) (y : BitVec n) :
    (x ++ y).toNat = x.toNat * 2 ^ n + y.toNat := by
  rw [BitVec.toNat_append, ← Nat.shiftLeft_add_eq_or_of_lt y.isLt, Nat.shiftLeft_eq]

theorem toNat_field {n : Nat} (w : BitVec n) (lo len : Nat) :
    (w.extractLsb' lo len).toNat = w.toNat / 2 ^ lo % 2 ^ len := by
  rw [BitVec.extractLsb'_toNat, Nat.shiftRight_eq_div_pow]

theorem busWord_toNat (k u : BitVec 4) (a : Half) (v : Byte) :
    (busWord k u a v).toNat = k.toNat * 2 ^ 28 + u.toNat * 2 ^ 24 + a.toNat * 2 ^ 8 + v.toNat := by
  simp only [busWord]
  erw [toNat_append, toNat_append, toNat_append]
  omega

theorem opWord_toNat (k u : BitVec 4) (op : Byte) (arg : Half) :
    (opWord k u op arg).toNat = k.toNat * 2 ^ 28 + u.toNat * 2 ^ 24 + op.toNat * 2 ^ 16 + arg.toNat := by
  simp only [opWord]
  erw [toNat_append, toNat_append, toNat_append]
  omega

section
variable (k u : BitVec 4) (a : Half) (v : Byte)

@[simp] theorem wordKind_busWord : wordKind (busWord k u a v) = k := by
  apply BitVec.eq_of_toNat_eq
  rw [wordKind, toNat_field, busWord_toNat]
  have := k.isLt; have := u.isLt; have := a.isLt; have := v.isLt
  omega

@[simp] theorem wordUnit_busWord : wordUnit (busWord k u a v) = u := by
  apply BitVec.eq_of_toNat_eq
  rw [wordUnit, toNat_field, busWord_toNat]
  have := k.isLt; have := u.isLt; have := a.isLt; have := v.isLt
  omega

@[simp] theorem wordAddr_busWord : wordAddr (busWord k u a v) = a := by
  apply BitVec.eq_of_toNat_eq
  rw [wordAddr, toNat_field, busWord_toNat]
  have := k.isLt; have := u.isLt; have := a.isLt; have := v.isLt
  omega

@[simp] theorem wordData_busWord : wordData (busWord k u a v) = v := by
  apply BitVec.eq_of_toNat_eq
  rw [wordData, toNat_field, busWord_toNat]
  have := k.isLt; have := u.isLt; have := a.isLt; have := v.isLt
  omega

@[simp] theorem wordKind_opWord : wordKind (opWord k u v a) = k := by
  apply BitVec.eq_of_toNat_eq
  rw [wordKind, toNat_field, opWord_toNat]
  have := k.isLt; have := u.isLt; have := a.isLt; have := v.isLt
  omega

@[simp] theorem wordUnit_opWord : wordUnit (opWord k u v a) = u := by
  apply BitVec.eq_of_toNat_eq
  rw [wordUnit, toNat_field, opWord_toNat]
  have := k.isLt; have := u.isLt; have := a.isLt; have := v.isLt
  omega

@[simp] theorem wordOp_opWord : wordOp (opWord k u v a) = v := by
  apply BitVec.eq_of_toNat_eq
  rw [wordOp, toNat_field, opWord_toNat]
  have := k.isLt; have := u.isLt; have := a.isLt; have := v.isLt
  omega

@[simp] theorem wordArg_opWord : wordArg (opWord k u v a) = a := by
  apply BitVec.eq_of_toNat_eq
  rw [wordArg, toNat_field, opWord_toNat]
  have := k.isLt; have := u.isLt; have := a.isLt; have := v.isLt
  omega

end

/-- A byte argument is read back from ARG[7:0], and its ARG[15:8] is 0 (R82). -/
theorem withByteArg_setWidth (b : Byte) (mk : Byte → Instr) :
    withByteArg (b.setWidth 16) mk = .ok (mk b) := by
  have hi : (b.setWidth 16).extractLsb' 8 8 = 0 := by
    apply BitVec.eq_of_toNat_eq
    rw [toNat_field, BitVec.toNat_setWidth]
    have := b.isLt
    have h0 : (0 : Byte).toNat = 0 := rfl
    omega
  have lo : (b.setWidth 16).extractLsb' 0 8 = b := by
    apply BitVec.eq_of_toNat_eq
    rw [toNat_field, BitVec.toNat_setWidth]
    have := b.isLt
    omega
  rw [withByteArg, if_pos hi, lo]

end Sys2Proof.Laws
end

