-- ==== Sys2Proof/Laws/PerInstr.lean ====
section
/-! SUPPORT. Statements for all instructions, one lemma per constructor. RoundTrip: the decoder reads a well-formed
transaction back from its word, with every operand (R85, R86). -/

namespace Sys2Proof.Laws.RoundTrip

/-- Under every output-enable mask for which the transaction is well formed, its word decodes to it. -/
def Statement (i : Instr) : Prop :=
  ∀ soe : Byte, i.wf soe = true → decode soe (encode i) = .ok i

theorem dkcRdKey (a : Half) : Statement (.dkcRdKey a) := by
  intro soe h
  simp only [Instr.wf, beq_iff_eq] at h
  simp [decode, encode, decodeBusRead, busUnitOf, busRead, decodeDkcRead, h]

theorem dkcRdStatus (a : Half) : Statement (.dkcRdStatus a) := by
  intro soe h
  simp only [Instr.wf, beq_iff_eq] at h
  simp [decode, encode, decodeBusRead, busUnitOf, busRead, decodeDkcRead, h]

theorem dkcRdNone (a : Half) : Statement (.dkcRdNone a) := by
  intro soe h
  simp only [Instr.wf, beq_iff_eq] at h
  simp [decode, encode, decodeBusRead, busUnitOf, busRead, decodeDkcRead, h]

theorem dkcWrDisp (a : Half) (v : Byte) : Statement (.dkcWrDisp a v) := by
  intro soe h
  simp only [Instr.wf, beq_iff_eq] at h
  simp [decode, encode, decodeBusWrite, busUnitOf, busWrite, decodeDkcWrite, h]

theorem dkcWrCtrl (a : Half) (v : Byte) : Statement (.dkcWrCtrl a v) := by
  intro soe h
  simp only [Instr.wf, beq_iff_eq] at h
  simp [decode, encode, decodeBusWrite, busUnitOf, busWrite, decodeDkcWrite, h]

theorem dkcWrNone (a : Half) (v : Byte) : Statement (.dkcWrNone a v) := by
  intro soe h
  simp only [Instr.wf, beq_iff_eq] at h
  simp [decode, encode, decodeBusWrite, busUnitOf, busWrite, decodeDkcWrite, h]

theorem ticWrCmdNop (a : Half) (v : Byte) : Statement (.ticWrCmdNop a v) := by
  intro soe h
  simp only [Instr.wf, Bool.and_eq_true, beq_iff_eq] at h
  simp [decode, encode, decodeBusWrite, busUnitOf, busWrite, decodeTicWrite, decodeTimerCommand, h.1, h.2]

theorem ticWrCmdAbort (a : Half) (v : Byte) : Statement (.ticWrCmdAbort a v) := by
  intro soe h
  simp only [Instr.wf, Bool.and_eq_true, beq_iff_eq] at h
  simp [decode, encode, decodeBusWrite, busUnitOf, busWrite, decodeTicWrite, decodeTimerCommand, h.1, h.2]

theorem ticWrCmdPend (a : Half) (v : Byte) : Statement (.ticWrCmdPend a v) := by
  intro soe h
  simp only [Instr.wf, Bool.and_eq_true, beq_iff_eq] at h
  simp [decode, encode, decodeBusWrite, busUnitOf, busWrite, decodeTicWrite, decodeTimerCommand, h.1, h.2]

theorem ticWrCmdStart (a : Half) (v : Byte) : Statement (.ticWrCmdStart a v) := by
  intro soe h
  simp only [Instr.wf, Bool.and_eq_true, beq_iff_eq] at h
  simp [decode, encode, decodeBusWrite, busUnitOf, busWrite, decodeTicWrite, decodeTimerCommand, h.1, h.2]

theorem ticWrPlo (a : Half) (v : Byte) : Statement (.ticWrPlo a v) := by
  intro soe h
  simp only [Instr.wf, beq_iff_eq] at h
  simp [decode, encode, decodeBusWrite, busUnitOf, busWrite, decodeTicWrite, h]

theorem ticWrPhi (a : Half) (v : Byte) : Statement (.ticWrPhi a v) := by
  intro soe h
  simp only [Instr.wf, beq_iff_eq] at h
  simp [decode, encode, decodeBusWrite, busUnitOf, busWrite, decodeTicWrite, h]

theorem ticWrSerOn (a : Half) (v : Byte) : Statement (.ticWrSerOn a v) := by
  intro soe h
  simp only [Instr.wf, Bool.and_eq_true, beq_iff_eq] at h
  simp [decode, encode, decodeBusWrite, busUnitOf, busWrite, decodeTicWrite, h.1, h.2]

theorem ticWrSerOff (a : Half) (v : Byte) : Statement (.ticWrSerOff a v) := by
  intro soe h
  simp only [Instr.wf, Bool.and_eq_true, Bool.not_eq_true', beq_iff_eq] at h
  simp [decode, encode, decodeBusWrite, busUnitOf, busWrite, decodeTicWrite, h.1, h.2]

theorem ticWrNone (a : Half) (v : Byte) : Statement (.ticWrNone a v) := by
  intro soe h
  simp only [Instr.wf, beq_iff_eq] at h
  simp [decode, encode, decodeBusWrite, busUnitOf, busWrite, decodeTicWrite, h]

theorem ticRdSer (a : Half) : Statement (.ticRdSer a) := by
  intro soe h
  simp only [Instr.wf, beq_iff_eq] at h
  simp [decode, encode, decodeBusRead, busUnitOf, busRead, decodeTicRead, h]

theorem ticRdNone (a : Half) : Statement (.ticRdNone a) := by
  intro soe h
  simp only [Instr.wf, bne_iff_ne] at h
  simp only [decode, encode, decodeBusRead, busUnitOf, busRead, decodeTicRead, wordKind_busWord, wordUnit_busWord,
    wordAddr_busWord, wordData_busWord]
  cases hs : ticSel a <;> simp_all

theorem ticTick (n : Half) : Statement (.ticTick n) := by
  intro soe _
  simp [decode, encode, decodeDriverOp]

theorem ticTakeNmi : Statement (.ticTakeNmi) := by
  intro soe _
  simp [decode, encode, decodeDriverOp, withZeroArg]

theorem ticTakeInt : Statement (.ticTakeInt) := by
  intro soe _
  simp [decode, encode, decodeDriverOp, withZeroArg]

theorem ticTakeReset : Statement (.ticTakeReset) := by
  intro soe _
  simp [decode, encode, decodeDriverOp, withZeroArg]

theorem ticTakeData : Statement (.ticTakeData) := by
  intro soe _
  simp [decode, encode, decodeDriverOp, withZeroArg]

theorem ticSetNmi : Statement (.ticSetNmi) := by
  intro soe _
  simp [decode, encode, decodeDriverOp, withZeroArg]

theorem dkcBanner : Statement (.dkcBanner) := by
  intro soe _
  simp [decode, encode, decodeDriverOp, withZeroArg]

theorem dkcKeyEnq (b : Byte) : Statement (.dkcKeyEnq b) := by
  intro soe _
  simp [decode, encode, decodeHostOp, withByteArg_setWidth]

theorem ticSetSid (b : Byte) : Statement (.ticSetSid b) := by
  intro soe _
  simp [decode, encode, decodeHostOp, withByteArg_setWidth]

theorem ticSetInt : Statement (.ticSetInt) := by
  intro soe _
  simp [decode, encode, decodeHostOp, withZeroArg]

theorem ticSetData (b : Byte) : Statement (.ticSetData b) := by
  intro soe _
  simp [decode, encode, decodeHostOp, withByteArg_setWidth]

theorem ticReqReset : Statement (.ticReqReset) := by
  intro soe _
  simp [decode, encode, decodeHostOp, withZeroArg]

theorem dkcReset : Statement (.dkcReset) := by
  intro soe _
  simp [decode, encode, decodeHostOp, withZeroArg]

theorem ticReset : Statement (.ticReset) := by
  intro soe _
  simp [decode, encode, decodeHostOp, withZeroArg]

theorem dkcPowerOn : Statement (.dkcPowerOn) := by
  intro soe _
  simp [decode, encode, decodeHostOp, withZeroArg]

theorem ticPowerOn : Statement (.ticPowerOn) := by
  intro soe _
  simp [decode, encode, decodeHostOp, withZeroArg]

theorem drvCancel : Statement (.drvCancel) := by
  intro soe _
  simp [decode, encode, decodeHostOp, withZeroArg]

theorem drvStart : Statement (.drvStart) := by
  intro soe _
  simp [decode, encode, decodeHostOp, withZeroArg]

end Sys2Proof.Laws.RoundTrip
end

