-- ==== Sys2Proof/Laws/Step.lean ====
section
/-! SUPPORT. What a step, an input and a step of the driver task can be. -/

namespace Sys2Proof.Machine

/-- A step is one input acting on the state with that input taken. -/
theorem step_cases (s : State) :
    ∃ (x : Input) (inbox : List Input) (draws : Nat), step s = act x { s with inbox := inbox, draws := draws } := by
  unfold step
  cases h : s.inbox with
  | nil => exact ⟨.agent (Config.environment s.draws), [], s.draws + 1, by simp only; rfl⟩
  | cons x rest => exact ⟨x, rest, s.draws, rfl⟩

/-- A word that answers a next state decodes to the transaction that ran. -/
theorem presentWord_next {w : Word} {s t : State} (h : presentWord w s = .next t) :
    ∃ i : Instr, decode s.cfg.soeMask w = .ok i ∧ exec i s = .next t := by
  simp only [presentWord] at h
  split at h
  · exact ⟨_, ‹_›, h⟩
  · cases h

/-- An agent's move that answers a next state ran a host operation, a step of the driver task, or the passing of time
(R180). -/
theorem agentMove_next {m : AgentMove} {s t : State} (h : agentMove m s = .next t) :
    (∃ unit op arg i, decode s.cfg.soeMask (opWord 3 unit op arg) = .ok i ∧ exec i s = .next t) ∨
    (∃ a : CpuAnswer, driverMove a s = .next t) ∨ ∃ num den : Nat, t = passTime num den s := by
  cases m with
  | host unit op arg => exact .inl ⟨unit, op, arg, presentWord_next h⟩
  | driver a => exact .inr (.inl ⟨a, h⟩)
  | elapse num den => exact .inr (.inr ⟨num, den, (Host.Outcome.next.inj h).symm⟩)

/-- A step that answers a next state ran a decoded transaction, a step of the driver task, or the passing of time. -/
theorem act_next {x : Input} {s t : State} (h : act x s = .next t) :
    (∃ i : Instr, exec i s = .next t) ∨ (∃ a : CpuAnswer, driverMove a s = .next t) ∨
    ∃ num den : Nat, t = passTime num den s := by
  cases x with
  | word w => exact .inl ((presentWord_next h).imp fun _ => And.right)
  | agent m => exact (agentMove_next h).imp_left fun ⟨_, _, _, i, _, e⟩ => ⟨i, e⟩

/-- The halt exit's wait leaves the state as it is, or goes on once the delay has passed (R185). -/
theorem awaitBanner_cases (since : Rat) (s : State) :
    (s.clock < since + s.cfg.bannerDelay ∧ awaitBanner since s = s) ∨
    (since + s.cfg.bannerDelay ≤ s.clock ∧ awaitBanner since s = s.goto .haltBanner) := by
  unfold awaitBanner
  by_cases h : since + s.cfg.bannerDelay ≤ s.clock
  · exact .inr ⟨h, if_pos h⟩
  · exact .inl ⟨not_le.mp h, if_neg h⟩

/-- A move of the CPU is a transaction of the table, nothing of the block's, or the return of its step (R182). -/
theorem cpuMove_cases (m : CpuMove) (s : State) :
    cpuMove m s = .next s ∨ (∃ i : Instr, cpuMove m s = exec i s) ∨ ∃ n, cpuMove m s = .next (s.goto (.account n)) := by
  have bus : ∀ (target : Option BusUnit) (access : BusUnit → Instr),
      cpuBus target access s = .next s ∨ ∃ i : Instr, cpuBus target access s = exec i s := by
    intro target access
    cases target with
    | none => exact .inl rfl
    | some u => exact .inr ⟨access u, rfl⟩
  cases m with
  | load sp a =>
    rcases bus (s.cfg.routeOf sp a) (fun u => busRead u a) with h | h
    · exact .inl h
    · exact .inr (.inl h)
  | store sp a v =>
    rcases bus (s.cfg.routeOf sp a) (fun u => busWrite s.cfg.soeMask u a v) with h | h
    · exact .inl h
    · exact .inr (.inl h)
  | takeNmi => exact .inr (.inl ⟨.ticTakeNmi, rfl⟩)
  | takeInt => exact .inr (.inl ⟨.ticTakeInt, rfl⟩)
  | takeData => exact .inr (.inl ⟨.ticTakeData, rfl⟩)
  | ret n => exact .inr (.inr ⟨n, rfl⟩)

end Sys2Proof.Machine
end

