-- ==== Sys2Proof/Tests/Slice0.lean ====
section
/-! SUPPORT. The model's own tests: words and results from the tables of 95_test_vectors.md (its vector names stand in
the comments) or worked out by hand from the named rule, and a witness for the hypotheses of each obligation. -/

namespace Sys2Proof.Tests

open Sys2Proof.Machine

/-! Small states -/

/-- Power-on, with these two DKC registers. -/
def dkcAt (ctrl : Byte) (fseq : Nat) : State :=
  { State.reset with dkc := { Dkc.powerOn with ctrl := ctrl, fseq := fseq } }

/-- Power-on, with this key queue. -/
def queueAt (q : List Byte) : State := { State.reset with dkc := { Dkc.powerOn with keyq := q } }

/-- Power-on, with this timer. -/
def timerAt (x : TimerState) (count period : Half) : State :=
  { State.reset with tic := { Tic.powerOn with tstate := x, count := count, period := period } }

/-- Power-on, with all four latches pending. -/
def latchesAt : State :=
  { State.reset with tic := { Tic.powerOn with nmi := true, intr := true, rstreq := true, vdata := 0x3C } }

/-- Power-on, with this serial input frame. -/
def inputAt (connected : Bool) (b : Byte) (k : Fin 8) : State :=
  { State.reset with
    tic := { Tic.powerOn with ttyConnected := connected, inputByte := b, inputBitsConsumed := k } }

/-- Power-on, with this serial output group. -/
def outputAt (b : Byte) (n : Fin 8) : State :=
  { State.reset with tic := { Tic.powerOn with outputByte := b, outputBitsAssembled := n } }

/-- Power-on, with the driver running at this position. -/
def drvAt (p : Position) : State :=
  { State.reset with drv := { Driver.powerOn with dstate := .running, pos := p } }

/-- A driver past the measurement threshold (W7), at this wall-clock time. -/
def measureAt (now : Rat) : State :=
  { State.reset with
    drv := { Driver.powerOn with dstate := .running, pos := .measure, cumCycles := 20000, sinceMeasure := 10000 }
    clock := now }

/-- A driver in the banner delay begun at `since`, with BANNER_DELAY at half a second, at this wall-clock time. -/
def haltWaitAt (since now : Rat) : State :=
  { State.reset with
    drv := { Driver.powerOn with dstate := .halted, pos := .haltWait since }
    cfg := { Config.suggested with bannerDelay := 1 / 2 }
    clock := now }

/-- Power-on, with this word as the next input. -/
def wordAt (w : Word) : State := { State.reset with inbox := [.word w] }

/-- The reset state with this move as the next input. -/
def agentAt (m : AgentMove) : State := { State.reset with inbox := [.agent m] }

/-- A CPU that answers this move, and this halted flag. -/
def cpu (m : CpuMove) (halted : Bool) : CpuAnswer := ⟨m, halted⟩

/-- The refusal an outcome is, if it is one. -/
def refusalOf (o : Host.Outcome State Fault Refusal) : Option Refusal :=
  match o with
  | .next _ => none
  | .fault _ => none
  | .refused r => some r

/-! The checks of well-formedness: an ill-formed term for each -/

theorem test_wf_rdKey : (Instr.dkcRdKey 0x1801).wf 0x40 = false := by decide
theorem test_wf_rdStatus : (Instr.dkcRdStatus 0x1800).wf 0x40 = false := by decide
theorem test_wf_dkcRdNone : (Instr.dkcRdNone 0x1900).wf 0x40 = false := by decide
theorem test_wf_wrDisp : (Instr.dkcWrDisp 0x1900 0x98).wf 0x40 = false := by decide
theorem test_wf_wrCtrl : (Instr.dkcWrCtrl 0x1800 0x90).wf 0x40 = false := by decide
theorem test_wf_dkcWrNone : (Instr.dkcWrNone 0x1800 0x90).wf 0x40 = false := by decide
theorem test_wf_cmdNop : (Instr.ticWrCmdNop 0x0020 0x40).wf 0x40 = false := by decide
theorem test_wf_cmdNop_port : (Instr.ticWrCmdNop 0x0021 0x3F).wf 0x40 = false := by decide
theorem test_wf_cmdAbort : (Instr.ticWrCmdAbort 0x0020 0x80).wf 0x40 = false := by decide
theorem test_wf_cmdPend : (Instr.ticWrCmdPend 0x0020 0x40).wf 0x40 = false := by decide
theorem test_wf_cmdStart : (Instr.ticWrCmdStart 0x0020 0x80).wf 0x40 = false := by decide
theorem test_wf_plo : (Instr.ticWrPlo 0x0025 0x00).wf 0x40 = false := by decide
theorem test_wf_phi : (Instr.ticWrPhi 0x0024 0x00).wf 0x40 = false := by decide
theorem test_wf_serOn : (Instr.ticWrSerOn 0x00FF 0x80).wf 0x40 = false := by decide
theorem test_wf_serOff : (Instr.ticWrSerOff 0x00FF 0xC0).wf 0x40 = false := by decide
theorem test_wf_ticWrNone : (Instr.ticWrNone 0x0024 0x00).wf 0x40 = false := by decide
theorem test_wf_rdSer : (Instr.ticRdSer 0x0024).wf 0x40 = false := by decide
theorem test_wf_ticRdNone : (Instr.ticRdNone 0x18FF).wf 0x40 = false := by decide

/-! Decode: words from 95_test_vectors.md section 2.1 and its programs, one for every row -/

theorem test_decode_dkc :
    decodeTableWord 32 0x00180000 = some (.dkcRdKey 0x1800) ∧
    decodeTableWord 32 0x00190000 = some (.dkcRdStatus 0x1900) ∧
    decodeTableWord 32 0x00180100 = some (.dkcRdNone 0x1801) ∧
    decodeTableWord 32 0x00000000 = some (.dkcRdKey 0x0000) ∧
    decodeTableWord 32 0x10180098 = some (.dkcWrDisp 0x1800 0x98) ∧
    decodeTableWord 32 0x10190090 = some (.dkcWrCtrl 0x1900 0x90) ∧
    decodeTableWord 32 0x10001900 = some (.dkcWrNone 0x0019 0x00) ∧
    decodeTableWord 32 0x1018FF00 = some (.dkcWrNone 0x18FF 0x00) ∧
    decodeTableWord 32 0x30100005 = some (.dkcKeyEnq 0x05) := by decide

theorem test_decode_timer :
    decodeTableWord 32 0x1100203F = some (.ticWrCmdNop 0x0020 0x3F) ∧
    decodeTableWord 32 0x1100207F = some (.ticWrCmdAbort 0x0020 0x7F) ∧
    decodeTableWord 32 0x11002080 = some (.ticWrCmdPend 0x0020 0x80) ∧
    decodeTableWord 32 0x110020C0 = some (.ticWrCmdStart 0x0020 0xC0) ∧
    decodeTableWord 32 0x110024FF = some (.ticWrPlo 0x0024 0xFF) ∧
    decodeTableWord 32 0x11002540 = some (.ticWrPhi 0x0025 0x40) ∧
    decodeTableWord 32 0x11002100 = some (.ticWrNone 0x0021 0x00) ∧
    decodeTableWord 32 0x01002400 = some (.ticRdNone 0x0024) ∧
    decodeTableWord 32 0x2100FFFF = some (.ticTick 0xFFFF) := by decide

theorem test_decode_latches :
    decodeTableWord 32 0x21010000 = some .ticTakeNmi ∧
    decodeTableWord 32 0x21020000 = some .ticTakeInt ∧
    decodeTableWord 32 0x21030000 = some .ticTakeReset ∧
    decodeTableWord 32 0x21040000 = some .ticTakeData ∧
    decodeTableWord 32 0x21050000 = some .ticSetNmi ∧
    decodeTableWord 32 0x31120000 = some .ticSetInt ∧
    decodeTableWord 32 0x311300CF = some (.ticSetData 0xCF) ∧
    decodeTableWord 32 0x31140000 = some .ticReqReset := by decide

theorem test_decode_serial :
    decodeTableWord 32 0x0118FF00 = some (.ticRdSer 0x18FF) ∧
    decodeTableWord 32 0x1100FFC0 = some (.ticWrSerOn 0x00FF 0xC0) ∧
    decodeTableWord 32 0x1100FF80 = some (.ticWrSerOff 0x00FF 0x80) ∧
    decodeTableWord 32 0x31110041 = some (.ticSetSid 0x41) := by decide

theorem test_decode_driver_and_resets :
    decodeTableWord 32 0x20060000 = some .dkcBanner ∧
    decodeTableWord 32 0x32300000 = some .drvCancel ∧
    decodeTableWord 32 0x32310000 = some .drvStart ∧
    decodeTableWord 32 0x30200000 = some .dkcReset ∧
    decodeTableWord 32 0x31200000 = some .ticReset ∧
    decodeTableWord 32 0x30210000 = some .dkcPowerOn ∧
    decodeTableWord 32 0x31210000 = some .ticPowerOn := by decide

theorem test_decode_reserved :
    decode 0x40 0x001801FF = .error .readDataNotZero ∧ decode 0x40 0x02180000 = .error .reservedUnit ∧
    decode 0x40 0x40000000 = .error .reservedKind ∧ decode 0x40 0x21060000 = .error .noSuchOp ∧
    decode 0x40 0x31010000 = .error .noSuchOp ∧ decode 0x40 0x30100105 = .error .argNotZero ∧
    decode 0x40 0x21010001 = .error .argNotZero ∧ decode 0x40 0x12000000 = .error .reservedUnit := by decide

/-- The `soe` mask alone decides between the two serial-write rows (R89). -/
theorem test_decode_other_mask :
    decode 0x01 0x1100FF40 = .ok (.ticWrSerOff 0x00FF 0x40) ∧
    decode 0x01 0x1100FF01 = .ok (.ticWrSerOn 0x00FF 0x01) := by decide

theorem test_encode : encode (.dkcWrCtrl 0x1900 0x90) = 0x10190090 ∧ encode (.ticSetData 0xCF) = 0x311300CF ∧
    encode (.ticTick 0x000A) = 0x2100000A ∧ encode .drvStart = 0x32310000 := by decide

/-! Constraints of R8 -/

theorem test_suggested_config_valid : Config.suggested.valid = true := by decide
theorem test_config_same_fill_commands : ({ Config.suggested with cmdFillData := 0x90 }).valid = false := by decide
theorem test_config_mask_bit7 : ({ Config.suggested with soeMask := 0x80 }).valid = false := by decide
theorem test_config_latch_port : ({ Config.suggested with dataLatchPort := some 0x24 }).valid = false := by decide

/-! Display/keyboard controller -/

/-- W1, step 3. -/
theorem test_rdKey : nextState (exec (.dkcRdKey 0x1800) (queueAt [0x05, 0x12])) =
    some { queueAt [0x12] with ret := .byte 0x05 } := by decide

/-- W1, step 7. -/
theorem test_rdKey_empty : nextState (exec (.dkcRdKey 0x1800) (queueAt [])) =
    some { queueAt [] with ret := .byte 0x00 } := by decide

/-- K9. -/
theorem test_rdStatus : nextState (exec (.dkcRdStatus 0x1900) (queueAt [0x03])) =
    some { queueAt [0x03] with ret := .byte 0x00 } := by decide

/-- K11. -/
theorem test_dkcRdNone : nextState (exec (.dkcRdNone 0x1801) (queueAt [0x04])) =
    some { queueAt [0x04] with ret := .byte 0x00 } := by decide

/-- K2. -/
theorem test_wrDisp_addr4 : (nextState (exec (.dkcWrDisp 0x1800 0xFF) (dkcAt 0x90 4))).map
    (fun t => (t.dkc.addr, t.dkc.fseq, t.events)) =
    some (#v[0x00, 0x00, 0x00, 0x00], 5, [.latchWrite .addr 4 0x00]) := by decide

/-- K4. -/
theorem test_wrDisp_data2 : (nextState (exec (.dkcWrDisp 0x1800 0x28) (dkcAt 0x94 2))).map
    (fun t => (t.dkc.data, t.dkc.fseq, t.events)) =
    some (#v[0x00, 0x7D], 3, [.latchWrite .data 2 0x7D]) := by decide

/-- W5, steps 2 to 5 and K13: the glyphs. -/
theorem test_glyph : [0x98, 0x88, 0x83, 0x70, 0x7C, 0x00, 0xFF, 0x0F, 0xF0, 0x12].map glyph =
    [0x76, 0x77, 0xC7, 0xF8, 0x38, 0xFF, 0x00, 0x0F, 0xF0, 0xDE] := by decide

/-- K8. -/
theorem test_wrCtrl : nextState (exec (.dkcWrCtrl 0x1900 0x12) (dkcAt 0x90 3)) = some (dkcAt 0x12 1) := by decide

/-- K12. -/
theorem test_dkcWrNone : nextState (exec (.dkcWrNone 0x1855 0x90) (dkcAt 0x90 3)) = some (dkcAt 0x90 3) := by decide

/-- W1, step 4. -/
theorem test_keyEnq : nextState (exec (.dkcKeyEnq 0x07) (queueAt [0x12])) = some (queueAt [0x12, 0x07]) := by decide

/-! Interval timer -/

/-- T8. -/
theorem test_cmdNop : nextState (exec (.ticWrCmdNop 0x0020 0x3F) (timerAt .started 7 9)) =
    some (timerAt .started 7 9) := by decide

/-- T11. -/
theorem test_cmdAbort : nextState (exec (.ticWrCmdAbort 0x0020 0x7F) (timerAt .started 4 9)) =
    some (timerAt .abort 4 9) := by decide

/-- W8, second row. -/
theorem test_cmdPend : nextState (exec (.ticWrCmdPend 0x0020 0x80) (timerAt .abort 2 4)) =
    some (timerAt .pending 2 4) := by decide

/-- T12. -/
theorem test_cmdStart : nextState (exec (.ticWrCmdStart 0x0020 0xFF) (timerAt .started 4 9)) =
    some (timerAt .started 9 9) := by decide

/-- T7. -/
theorem test_plo : nextState (exec (.ticWrPlo 0x0024 0x02) (timerAt .started 7 0x0107)) =
    some (timerAt .started 7 0x0102) := by decide

/-- T2. -/
theorem test_phi : nextState (exec (.ticWrPhi 0x0025 0x40) (timerAt .abort 0 0x3FFF)) =
    some (timerAt .abort 0 0x00FF) := by decide

/-- W3, first row. -/
theorem test_tick_started : nextState (exec (.ticTick 5) (timerAt .started 5 5)) =
    some { timerAt .started 5 5 with ret := .flag true } := by decide

/-- W3, second row. -/
theorem test_tick_pending : nextState (exec (.ticTick 3) (timerAt .pending 3 5)) =
    some { timerAt .stopped 0 5 with ret := .flag true } := by decide

/-- T13. -/
theorem test_ticRdNone : nextState (exec (.ticRdNone 0x0024) (timerAt .abort 0x0123 0x0123)) =
    some { timerAt .abort 0x0123 0x0123 with ret := .byte 0x00 } := by decide

/-- T14. -/
theorem test_ticWrNone : nextState (exec (.ticWrNone 0x0021 0xFF) State.reset) = some State.reset := by decide

/-! Interrupt latches: W4 and L2 to L5 -/

theorem test_takeNmi : (nextState (exec .ticTakeNmi latchesAt)).map (fun t => (t.ret, t.tic.nmi, t.tic.intr)) =
    some (.flag true, false, true) := by decide
theorem test_takeInt : (nextState (exec .ticTakeInt latchesAt)).map (fun t => (t.ret, t.tic.intr, t.tic.nmi)) =
    some (.flag true, false, true) := by decide
theorem test_takeReset : (nextState (exec .ticTakeReset latchesAt)).map (fun t => (t.ret, t.tic.rstreq, t.tic.nmi)) =
    some (.flag true, false, true) := by decide
theorem test_takeData : (nextState (exec .ticTakeData latchesAt)).map (fun t => (t.ret, t.tic.vdata, t.tic.intr)) =
    some (.byte 0x3C, 0x00, true) := by decide
theorem test_takeNmi_clear : (nextState (exec .ticTakeNmi State.reset)).map (·.ret) = some (.flag false) := by decide
theorem test_setNmi : (nextState (exec .ticSetNmi State.reset)).map (fun t => (t.tic.nmi, t.tic.intr)) =
    some (true, false) := by decide
theorem test_setInt : (nextState (exec .ticSetInt State.reset)).map (fun t => (t.tic.intr, t.tic.nmi)) =
    some (true, false) := by decide
theorem test_setData : (nextState (exec (.ticSetData 0x22) latchesAt)).map (fun t => t.tic.vdata) =
    some 0x22 := by decide
theorem test_reqReset : (nextState (exec .ticReqReset State.reset)).map (fun t => (t.tic.rstreq, t.tic.period)) =
    some (true, 0x0000) := by decide

/-! Serial line -/

/-- S1, read 1: the edge. -/
theorem test_rdSer_edge : nextState (exec (.ticRdSer 0x00FF) State.reset) =
    some { inputAt true 0x00 0 with ret := .byte 0x00 } := by decide

/-- S5: slot 3 returns bit 2. -/
theorem test_rdSer_bit : nextState (exec (.ticRdSer 0x00FF) (inputAt true 0x7F 3)) =
    some { inputAt true 0x7F 4 with ret := .byte 0x80 } := by decide

/-- S6. -/
theorem test_wrSerOn : (nextState (exec (.ticWrSerOn 0x00FF 0x40) (outputAt 0x02 7))).map
    (fun t => (t.tic.outputByte, t.tic.outputBitsAssembled, t.tic.transcript, t.events)) =
    some (0x41, 0, [0x41], [.serialChar 0x41]) := by decide

/-- W2, step 2. -/
theorem test_wrSerOn_first : nextState (exec (.ticWrSerOn 0x00FF 0x40) (outputAt 0x00 1)) =
    some (outputAt 0x40 2) := by decide

/-- S7. -/
theorem test_wrSerOff : nextState (exec (.ticWrSerOff 0x00FF 0x80) (outputAt 0x00 3)) =
    some (outputAt 0x00 3) := by decide

/-- S5: a byte set in mid-frame keeps the counter. -/
theorem test_setSid : nextState (exec (.ticSetSid 0x7F) (inputAt true 0x41 3)) = some (inputAt true 0x7F 3) := by
  decide

/-! Driver, host and resets -/

/-- W6 and P6, row 15. -/
theorem test_banner : (nextState (exec .dkcBanner State.reset)).map
    (fun t => (t.dkc.addr, t.dkc.data, t.events.length)) =
    some (#v[0x76, 0x77, 0x38, 0xF8], #v[0x07, 0x7D], 6) := by decide

/-- D9. -/
theorem test_cancel : (nextState (exec .drvCancel (drvAt .cpuBody))).map (·.drv.cancelReq) = some true := by decide

/-- D7. -/
theorem test_start : (nextState (exec .drvStart (timerAt .started 3 5))).map
    (fun t => (t.drv.dstate, t.drv.cancelReq, t.drv.clockRateHz, t.tic.count)) =
    some (.running, false, none, 3) := by decide

/-- D6. -/
theorem test_start_running : refusalOf (exec .drvStart (drvAt .cpuBody)) = some .driverNotStopped := by decide

/-- D8, with an image that does not fit. -/
theorem test_start_bad_image :
    refusalOf (exec .drvStart
      { State.reset with cfg := { Config.suggested with images := [⟨0xF000, 0x1001⟩] } }) =
    some .configurationError := by decide

/-- R189 and R193: a START while the driver is halted, its banner still pending. -/
theorem test_start_in_halt_exit : (nextState (exec .drvStart (haltWaitAt 1 1))).map (fun t => (t.drv.dstate, t.drv.pos)) =
    some (.running, .haltWait 1) := by decide +kernel

/-- R181: after that START the driver task ends its halt exit, and then runs the loop. -/
theorem test_loop_after_halt_exit :
    (nextState (driverMove (cpu (.ret 0) false) (drvAt .haltNotify))).map
      (fun t => (t.drv.dstate, t.drv.pos, t.events)) = some (.running, .cpuEntry, [.halted]) := by decide

/-- R193 and R224: a construction while the driver is halted, its banner still pending. -/
theorem test_ticPowerOn_in_halt_exit :
    (nextState (exec .ticPowerOn (haltWaitAt 1 1))).map (·.drv.pos) = some (.haltWait 1) := by decide +kernel

/-- R1. -/
theorem test_dkcReset : (nextState (exec .dkcReset { State.reset with
      dkc := { keyq := [1], ctrl := 0x90, fseq := 5, addr := #v[0x76, 0x77, 0x38, 0xF8], data := #v[0, 0] } })).map
      (·.dkc) =
    some { keyq := [], ctrl := 0x00, fseq := 1, addr := #v[0x76, 0x77, 0x38, 0xF8], data := #v[0, 0] } := by decide

/-- R2. -/
theorem test_dkcPowerOn : (nextState (exec .dkcPowerOn { State.reset with
      dkc := { keyq := [1], ctrl := 0x90, fseq := 5, addr := #v[0x76, 0x77, 0x38, 0xF8], data := #v[0, 0] } })).map
      (fun t => (t.dkc.addr, t.dkc.keyq, t.events)) = some (#v[0, 0, 0, 0], [], []) := by decide

/-- R3 and S12. -/
theorem test_ticReset : nextState (exec .ticReset (outputAt 0x55 5)) = some State.reset := by decide

/-- D5. -/
theorem test_ticReset_running : refusalOf (exec .ticReset (drvAt .cpuBody)) = some .driverNotStopped := by decide

/-- R3. -/
theorem test_ticPowerOn : nextState (exec .ticPowerOn (timerAt .started 3 5)) = some State.reset := by decide

/-! The driver task, one of its steps each -/

/-- D1: the next step of the CPU begins with the NMI take. -/
theorem test_driver_poll : (nextState (driverMove (cpu .takeNmi false)
      { drvAt .cpuEntry with tic := { Tic.powerOn with nmi := true } })).map
      (fun t => (t.ret, t.tic.nmi, t.drv.pos)) = some (.flag true, false, .cpuBody) := by decide

/-- P6, row 3: a port write of the CPU inside its step. -/
theorem test_driver_store : (nextState (driverMove (cpu (.store .io 0x0024 0x03) false) (drvAt .cpuBody))).map
    (·.tic.period) = some 0x0003 := by decide

/-- D1, step 3: TICK 7 with count 5. -/
theorem test_driver_tick : (nextState (driverMove (cpu (.ret 0) false)
      { drvAt (.tick 7) with tic := { Tic.powerOn with tstate := .started, count := 5, period := 5 } })).map
      (fun t => (t.tic.count, t.drv.pos)) = some (5, .raiseNmi true) := by decide

/-- D2. -/
theorem test_driver_reset : (nextState (driverMove (cpu (.ret 0) false)
      { drvAt .takeReset with tic := { Tic.powerOn with rstreq := true } })).map
      (fun t => (t.ret, t.tic.rstreq, t.drv.cpuResets)) = some (.flag true, false, 1) := by decide

/-- D3: halt wins over a waiting cancellation. -/
theorem test_driver_halt : (nextState (driverMove (cpu (.ret 0) true)
      { drvAt .checkHalt with
        drv := { Driver.powerOn with dstate := .running, cancelReq := true, pos := .checkHalt } })).map
      (fun t => (t.drv.dstate, t.drv.pos)) = some (.halted, .haltWait 0) := by decide +kernel

/-- R185: the banner delay, with BANNER_DELAY at half a second, before and at its end. -/
theorem test_banner_delay :
    (nextState (driverMove (cpu (.ret 0) true) (haltWaitAt 1 (5 / 4)))).map (·.drv.pos) = some (.haltWait 1) ∧
    (nextState (driverMove (cpu (.ret 0) true) (haltWaitAt 1 (3 / 2)))).map (·.drv.pos) = some .haltBanner := by
  decide +kernel

/-- W7, first row: 20000 cycles in 0.01 s. -/
theorem test_measure : (nextState (driverMove (cpu (.ret 0) false) (measureAt (1 / 100)))).map
    (fun t => (t.drv.clockRateHz, t.drv.sinceMeasure, t.events)) =
    some (some 2000000, 0, [.clockRate 2000000]) := by decide +kernel

/-- W7, second row: no time has passed. -/
theorem test_measure_no_time : (nextState (driverMove (cpu (.ret 0) false) (measureAt 0))).map
    (fun t => (t.drv.clockRateHz, t.drv.sinceMeasure, t.events)) = some (none, 0, []) := by decide +kernel

/-! Stepping a word -/

theorem test_step_word : (nextState (step (State.reset.withFetchWord 32 0x30100005))).map
    (fun t => (t.dkc.keyq, t.inbox)) = some ([0x05], []) := by decide

theorem test_step_reserved : refusalOf (step (State.reset.withFetchWord 32 0x40000000)) =
    some (.reservedWord .reservedKind) := by decide

/-- D9 and R180: a move of the host is a word of KIND 3. -/
theorem test_step_host : (nextState (step { State.reset with inbox := [.agent (.host 0 0x10 0x0005)] })).map (·.dkc.keyq) =
    some [0x05] := by decide

/-- R180: the same fields are no driver operation, TIC.TAKE_NMI, but an OP no host operation has. -/
theorem test_step_host_is_no_driver : refusalOf (step { State.reset with inbox := [.agent (.host 1 0x01 0x0000)] }) =
    some (.reservedWord .noSuchOp) := by decide

theorem test_step_passes_time : (nextState (step { State.reset with inbox := [.agent (.elapse 3 1)] })).map (·.clock) =
    some (3 / 2) := by decide +kernel

theorem test_core_step : core.step = step ∧ core.reset = State.reset := ⟨rfl, rfl⟩

/-! Witnesses: for each obligation with hypotheses, a concrete state and operands that meet them, each clause at the
ends of its range -/

theorem witness_KeyReadDequeuesOldestCode :
    (queueAt []).dkc.keyq = [] ∧ (queueAt [0x00, 0x09]).dkc.keyq = 0x00 :: [0x09] := by decide

theorem witness_DisplayWrite_addr_slots :
    ((dkcAt 0x90 1).dkc.ctrl = cmdFillAddr ∧ (dkcAt 0x90 1).dkc.fseq = (0 : Fin 4) + 1) ∧
    ((dkcAt 0x90 4).dkc.ctrl = cmdFillAddr ∧ (dkcAt 0x90 4).dkc.fseq = (3 : Fin 4) + 1) := by decide

theorem witness_DisplayWrite_addr_overrun :
    ((dkcAt 0x90 0).dkc.ctrl = cmdFillAddr ∧ (dkcAt 0x90 0).dkc.fseq = 0) ∧
    ((dkcAt 0x90 5).dkc.ctrl = cmdFillAddr ∧ 5 ≤ (dkcAt 0x90 5).dkc.fseq) := by decide

theorem witness_DisplayWrite_data_slots :
    (dkcAt 0x94 1).dkc.ctrl ≠ cmdFillAddr ∧ (dkcAt 0x94 1).dkc.ctrl = (dkcAt 0x94 1).cfg.cmdFillData ∧
    (dkcAt 0x94 1).dkc.fseq = (0 : Fin 2) + 1 ∧ (dkcAt 0x94 2).dkc.ctrl ≠ cmdFillAddr ∧
    (dkcAt 0x94 2).dkc.ctrl = (dkcAt 0x94 2).cfg.cmdFillData ∧ (dkcAt 0x94 2).dkc.fseq = (1 : Fin 2) + 1 := by decide

theorem witness_DisplayWrite_data_overrun :
    (dkcAt 0x94 0).dkc.ctrl ≠ cmdFillAddr ∧ (dkcAt 0x94 0).dkc.ctrl = (dkcAt 0x94 0).cfg.cmdFillData ∧
    (dkcAt 0x94 0).dkc.fseq = 0 ∧ (dkcAt 0x94 3).dkc.ctrl ≠ cmdFillAddr ∧
    (dkcAt 0x94 3).dkc.ctrl = (dkcAt 0x94 3).cfg.cmdFillData ∧ 3 ≤ (dkcAt 0x94 3).dkc.fseq := by decide

theorem witness_DisplayWrite_no_command :
    (dkcAt 0x12 1).dkc.ctrl ≠ cmdFillAddr ∧ (dkcAt 0x12 1).dkc.ctrl ≠ (dkcAt 0x12 1).cfg.cmdFillData := by decide

theorem witness_WritingTheGlyph :
    ((3 < 8 ∧ (glyph 0x98).getLsbD 3 = false) ∧ 7 < 8 ∧ (glyph 0x98).getLsbD 7 = false ∧
      (glyph 0x88).getLsbD 0 = true) ∧
    ((dkcAt 0x90 1).dkc.ctrl = cmdFillAddr ∧ (dkcAt 0x90 1).dkc.fseq = (0 : Fin 4) + 1) ∧
    ((dkcAt 0x90 4).dkc.ctrl = cmdFillAddr ∧ (dkcAt 0x90 4).dkc.fseq = (3 : Fin 4) + 1) ∧
    (dkcAt 0x94 1).dkc.ctrl ≠ cmdFillAddr ∧ (dkcAt 0x94 1).dkc.ctrl = (dkcAt 0x94 1).cfg.cmdFillData ∧
    (dkcAt 0x94 1).dkc.fseq = (0 : Fin 2) + 1 ∧ (dkcAt 0x94 2).dkc.fseq = (1 : Fin 2) + 1 := by decide

theorem witness_KeysAreServedInOrder :
    ∀ i ∈ [Instr.dkcKeyEnq 0x00, .dkcRdKey 0x1800, .dkcRdKey 0x1A00],
      (∃ a, i = .dkcRdKey a) ∨ ∃ b, i = .dkcKeyEnq b := by
  simp

/-- Splits of that run at its two reads, the first with a key queued and the second with none. -/
theorem witness_KeysAreServedInOrder_splits :
    [Instr.dkcKeyEnq 0x00, .dkcRdKey 0x1800, .dkcRdKey 0x1A00] =
      [.dkcKeyEnq 0x00] ++ .dkcRdKey 0x1800 :: [.dkcRdKey 0x1A00] ∧
    [Instr.dkcKeyEnq 0x00, .dkcRdKey 0x1800, .dkcRdKey 0x1A00] =
      [.dkcKeyEnq 0x00, .dkcRdKey 0x1800] ++ .dkcRdKey 0x1A00 :: [] := ⟨rfl, rfl⟩

theorem witness_DataFillSequence : State.reset.cfg.cmdFillData ≠ cmdFillAddr := by decide

theorem witness_NoTransactionReadsTheLatches :
    State.reset.sameButLatches { State.reset with dkc := { Dkc.powerOn with addr := #v[1, 2, 3, 4] } } ∧
    (nextState (exec (.dkcRdKey 0x1800) State.reset)).isSome = true := ⟨rfl, by decide⟩

theorem witness_FirstElapsed :
    (timerAt .started 5 5).tic.tstate = .started ∧ (timerAt .started 5 5).tic.count = (timerAt .started 5 5).tic.period ∧
    1 ≤ (timerAt .started 5 5).tic.period.toNat ∧
    ([(4 : Half), 0].map (·.toNat)).sum < (timerAt .started 5 5).tic.period.toNat ∧
    (timerAt .started 5 5).tic.period.toNat ≤ ([(4 : Half), 0].map (·.toNat)).sum + (1 : Half).toNat := by decide

theorem witness_UnassignedTicWrite : State.reset.cfg.dataLatchPort = none := by decide

theorem witness_DataLatchPort :
    ({ State.reset with cfg := { Config.suggested with dataLatchPort := some 0x21 } }).cfg.dataLatchPort =
      some (0x21 : Byte) ∧
    (0x1821 : Half).toNat % 256 = (0x21 : Byte).toNat ∧ (0x0022 : Half).toNat % 256 ≠ (0x21 : Byte).toNat := by decide

theorem witness_OnlyTheirOwnTransactions_raise :
    exec .ticSetNmi State.reset = .next { State.reset with tic := { Tic.powerOn with nmi := true } } ∧
    exec .ticSetInt State.reset = .next { State.reset with tic := { Tic.powerOn with intr := true } } ∧
    exec .ticReqReset State.reset = .next { State.reset with tic := { Tic.powerOn with rstreq := true } } :=
  ⟨rfl, rfl, rfl⟩

theorem witness_OnlyTheirOwnTransactions_clear :
    latchesAt.tic.nmi = true ∧ latchesAt.tic.intr = true ∧ latchesAt.tic.rstreq = true ∧
    exec .ticReset latchesAt = .next State.reset := ⟨rfl, rfl, rfl, rfl⟩

theorem witness_PendingNmis :
    Instr.ticSetNmi ∈ [Instr.ticSetNmi, .ticSetNmi, .ticTakeInt] ∧
    (∀ i ∈ [Instr.ticSetNmi, .ticSetNmi, .ticTakeInt], i ≠ .ticTakeNmi ∧ i ≠ .ticReset ∧ i ≠ .ticPowerOn) ∧
    runAll [Instr.ticSetNmi, .ticSetNmi, .ticTakeInt] State.reset =
      some ([.flag false], { State.reset with tic := { Tic.powerOn with nmi := true }, ret := .flag false }) := by
  decide

theorem witness_SerialRead_edge :
    (inputAt false 0x7F 0).tic.ttyConnected = (inputAt false 0x7F 0).tic.inputByte.getLsbD 7 ∧
    (inputAt true 0x80 7).tic.ttyConnected = (inputAt true 0x80 7).tic.inputByte.getLsbD 7 := by decide

theorem witness_SerialRead_idle :
    (inputAt false 0x80 0).tic.ttyConnected = false ∧ (inputAt false 0x80 0).tic.inputByte.getLsbD 7 = true := by decide

theorem witness_SerialRead_slot0 :
    (inputAt true 0x41 0).tic.ttyConnected = true ∧ (inputAt true 0x41 0).tic.inputByte.getLsbD 7 = false ∧
    (inputAt true 0x41 0).tic.inputBitsConsumed = 0 := by decide

theorem witness_SerialRead_slots1to6 :
    (inputAt true 0x41 1).tic.ttyConnected = true ∧ (inputAt true 0x41 1).tic.inputByte.getLsbD 7 = false ∧
    (inputAt true 0x41 1).tic.inputBitsConsumed.val = (0 : Fin 6) + 1 ∧
    (inputAt true 0x41 6).tic.ttyConnected = true ∧ (inputAt true 0x41 6).tic.inputByte.getLsbD 7 = false ∧
    (inputAt true 0x41 6).tic.inputBitsConsumed.val = (5 : Fin 6) + 1 := by decide

theorem witness_SerialRead_slot7 :
    (inputAt true 0x41 7).tic.ttyConnected = true ∧ (inputAt true 0x41 7).tic.inputByte.getLsbD 7 = false ∧
    (inputAt true 0x41 7).tic.inputBitsConsumed = 7 := by decide

theorem witness_InputFrame :
    (inputAt false 0x80 0).tic.ttyConnected = false ∧ (inputAt false 0x80 0).tic.inputBitsConsumed = 0 ∧
    (0x41 : Byte).getLsbD 7 = false := by decide

theorem witness_ByteWithTopBit :
    (inputAt false 0x80 0).tic.ttyConnected = false ∧ (0xC1 : Byte).getLsbD 7 = true := by decide

theorem witness_SerialWrite :
    (outputAt 0x00 0).tic.outputBitsAssembled.val = (0 : Fin 7) ∧
    (outputAt 0x00 6).tic.outputBitsAssembled.val = (6 : Fin 7) ∧
    (outputAt 0x02 7).tic.outputBitsAssembled = 7 := by decide

theorem witness_OutputFrame : (outputAt 0x55 0).tic.outputBitsAssembled = 0 := by decide

theorem witness_TranscriptIsAppendOnly :
    (nextState (exec (.ticWrSerOn 0x00FF 0x40) (outputAt 0x02 7))).any
      (fun t => t.tic.transcript != (outputAt 0x02 7).tic.transcript) = true ∧
    (nextState (exec .ticReset { State.reset with tic := { Tic.powerOn with transcript := [0x41] } })).any
      (fun t => t.tic.transcript == []) = true := by decide

theorem witness_Start :
    State.reset.drv.dstate ≠ .running ∧ State.reset.drv.pos.inHaltExit = false ∧
    State.reset.cfg.imagesFit = true ∧ (haltWaitAt 1 1).drv.dstate ≠ .running ∧
    (haltWaitAt 1 1).drv.pos.inHaltExit = true ∧ (haltWaitAt 1 1).cfg.imagesFit = true := by decide +kernel

theorem witness_StartRefusesABadImage :
    State.reset.drv.dstate ≠ .running ∧
    ({ Config.suggested with images := [⟨0xF000, 0x1001⟩] }).imagesFit = false ∧
    ({ Config.suggested with images := [⟨0xF000, 0x1000⟩] }).imagesFit = true ∧
    ({ Config.suggested with images := [⟨0x100, 0x10⟩], reserved := [⟨0x10F, 1⟩] }).imagesFit = false ∧
    ({ Config.suggested with images := [⟨0x100, 0x10⟩], reserved := [⟨0x110, 1⟩] }).imagesFit = true := by decide

theorem witness_Resets : State.reset.drv.dstate ≠ .running ∧ (haltWaitAt 1 1).drv.dstate ≠ .running := by decide +kernel

theorem witness_MutationsAreRefused :
    (drvAt .cpuBody).drv.dstate = .running ∧ Instr.dkcReset.needsStoppedDriver = true ∧
    Instr.ticReset.needsStoppedDriver = true ∧ Instr.dkcPowerOn.needsStoppedDriver = true ∧
    Instr.ticPowerOn.needsStoppedDriver = true ∧ Instr.drvStart.needsStoppedDriver = true := by decide

theorem witness_EveryOtherTransactionCompletes :
    (Instr.dkcKeyEnq 0x05).needsStoppedDriver = false ∧ Instr.drvCancel.needsStoppedDriver = false := by decide

theorem witness_IterationAfterTheCpuStep :
    (drvAt (.account 7)).drv.pos = .account 7 ∧ (drvAt (.account 7)).drv.cancelReq = false ∧
    (cpu (.ret 0) false).halted = false ∧
    ({ Driver.powerOn with dstate := .running, cancelReq := true, pos := Position.account 7 }).cancelReq = true ∧
    ({ Driver.powerOn with dstate := .running, cancelReq := true, pos := Position.account 7 }).pos = .account 7 := by
  decide

theorem witness_ElapsedTick :
    let s := { drvAt (.tick 5) with tic := { Tic.powerOn with tstate := .started, count := 5, period := 5 } }
    s.drv.pos = .tick 5 ∧ s.drv.dstate = .running ∧ s.drv.cancelReq = false ∧
      (cpu (.ret 0) false).halted = false ∧ (s.tic.tick 5).1 = true := by decide

theorem witness_HaltExit :
    (drvAt .checkHalt).drv.pos = .checkHalt ∧ (cpu (.ret 0) true).halted = true ∧
    (haltWaitAt 1 1).drv.pos = .haltWait 1 ∧ (haltWaitAt 1 1).drv.dstate ≠ .running ∧
    (drvAt (.haltWait 0)).drv.dstate = .running ∧
    (drvAt (.haltWait 0)).drv.pos = .haltWait 0 ∧
    (haltWaitAt 1 (5 / 4)).clock < 1 + (haltWaitAt 1 (5 / 4)).cfg.bannerDelay ∧
    1 + (haltWaitAt 1 (3 / 2)).cfg.bannerDelay ≤ (haltWaitAt 1 (3 / 2)).clock := by decide +kernel

theorem witness_Cancellation :
    let s := { State.reset with
      drv := { Driver.powerOn with dstate := .running, cancelReq := true, pos := .checkCancel } }
    s.drv.pos = .checkCancel ∧ s.drv.cancelReq = true ∧ s.drv.dstate ≠ .cancelled ∧
      (nextState (driverMove (cpu (.ret 0) false) s)).any (fun t => t.drv.dstate == .cancelled) = true ∧
      State.reset.drv.pos = .terminated := by decide

theorem witness_Cancellation_ended :
    let s := { State.reset with inbox := [.agent (.host 0 0x10 0x0005)] }
    s.drv.pos = .terminated ∧ (∀ w rest, s.inbox ≠ .word w :: rest) ∧ (nextState (step s)).isSome = true :=
  ⟨rfl, (fun _ _ h => by cases h), by decide⟩

theorem witness_Measurement :
    (measureAt 0).drv.pos = .measure ∧ 10000 ≤ (measureAt 0).drv.sinceMeasure ∧
    (measureAt 0).clock ≤ (measureAt 0).drv.startTime ∧
    (measureAt (1 / 100)).drv.startTime < (measureAt (1 / 100)).clock ∧
    (drvAt .measure).drv.pos = .measure ∧ (drvAt .measure).drv.sinceMeasure < 10000 := by decide +kernel

theorem witness_CpuAccess :
    ((drvAt .cpuEntry).drv.pos = .cpuEntry ∧ (drvAt .cpuEntry).drv.dstate = .running) ∧
    (drvAt .cpuBody).drv.pos = .cpuBody ∧
    State.reset.cfg.routeOf .memory 0x1800 = some .dkc ∧ State.reset.cfg.routeOf .memory 0x19FF = some .dkc ∧
    State.reset.cfg.routeOf .memory 0x17FF = none ∧ State.reset.cfg.routeOf .memory 0x1A00 = none ∧
    State.reset.cfg.routeOf .io 0x0020 = some .tic ∧
    (cpu (.load .memory 0x1800) false).move = .load .memory 0x1800 ∧
    (cpu (.store .io 0x0020 0xC0) false).move = .store .io 0x0020 0xC0 ∧
    (cpu .takeNmi false).move = .takeNmi ∧ (cpu .takeInt false).move = .takeInt ∧
    (cpu .takeData false).move = .takeData ∧ (cpu (.ret 7) false).move = .ret 7 := by decide

theorem witness_DkcWindowRegisters :
    (0x1800 : Half).toNat % 0x200 = 0 ∧ (0x1800 : Half).toNat ≤ (0x19FF : Half).toNat ∧
    (0x19FF : Half).toNat ≤ (0x1800 : Half).toNat + 0x1FF ∧ dkcSel 0x1800 = .data ∧ dkcSel 0x1900 = .ctrl ∧
    dkcSel 0x1801 = .none ∧ dkcSel 0x19FF = .none := by decide

theorem witness_DecodeOfEncode :
    (Instr.ticWrSerOn 0x18FF 0xC0).wf 0x40 = true ∧ (Instr.dkcRdNone 0x1801).wf 0x40 = true ∧
    (Instr.ticWrCmdNop 0x7720 0x3F).wf 0x40 = true ∧ Instr.drvStart.wf 0x40 = true := by decide

theorem witness_EncodeOfDecode : decode 0x40 0x1100FFC0 = .ok (.ticWrSerOn 0x00FF 0xC0) := by decide

theorem witness_AcceptedWord : decode 0x40 0x31130022 = .ok (.ticSetData 0x22) := by decide

theorem witness_ReservedWords_kind_and_unit :
    4 ≤ (wordKind 0x40000000).toNat ∧ 4 ≤ (wordKind 0xF0000000).toNat ∧
    ((wordKind 0x12000000).toNat ≤ 1 ∧ 2 ≤ (wordUnit 0x12000000).toNat) ∧
    ((wordKind 0x33200000).toNat ≤ 3 ∧ 3 ≤ (wordUnit 0x33200000).toNat) := by decide

theorem witness_ReservedWords_data_and_bus :
    (wordKind 0x001801FF = 0 ∧ (wordUnit 0x001801FF).toNat ≤ 1 ∧ wordData 0x001801FF ≠ 0) ∧
    ((wordKind 0x1100FFFF).toNat ≤ 1 ∧ (wordUnit 0x1100FFFF).toNat ≤ 1 ∧
      (wordKind 0x1100FFFF = 0 → wordData 0x1100FFFF = 0)) := by decide

/-- No operation row has this word's KIND, UNIT and OP, as a computation. -/
theorem no_row_of_all {w : Word} (h : (opRows.all fun r => opSelector w != opSelector r.1) = true) :
    ∀ r ∈ opRows, opSelector w ≠ opSelector r.1 :=
  fun r hr => by simpa using List.all_eq_true.mp h r hr

/-- 95_test_vectors.md section 2.1: an OP under another UNIT, and an OP of another KIND. -/
theorem witness_ReservedWords_op :
    ((wordKind 0x21060000 = 2 ∨ wordKind 0x21060000 = 3) ∧ (wordUnit 0x21060000).toNat ≤ 2 ∧
    (∀ r ∈ opRows, opSelector 0x21060000 ≠ opSelector r.1)) ∧
    ((wordKind 0x31010000 = 2 ∨ wordKind 0x31010000 = 3) ∧ (wordUnit 0x31010000).toNat ≤ 2 ∧
    (∀ r ∈ opRows, opSelector 0x31010000 ≠ opSelector r.1)) :=
  ⟨⟨by decide, by decide, no_row_of_all (by decide)⟩, ⟨by decide, by decide, no_row_of_all (by decide)⟩⟩

/-- OP 0x00 under KIND 3, and an unassigned OP at the top of its range. -/
theorem witness_ReservedWords_op_ends :
    ((wordKind 0x31000000 = 2 ∨ wordKind 0x31000000 = 3) ∧ (wordUnit 0x31000000).toNat ≤ 2 ∧
    (∀ r ∈ opRows, opSelector 0x31000000 ≠ opSelector r.1)) ∧
    ((wordKind 0x22FF0000 = 2 ∨ wordKind 0x22FF0000 = 3) ∧ (wordUnit 0x22FF0000).toNat ≤ 2 ∧
    (∀ r ∈ opRows, opSelector 0x22FF0000 ≠ opSelector r.1)) :=
  ⟨⟨by decide, by decide, no_row_of_all (by decide)⟩, ⟨by decide, by decide, no_row_of_all (by decide)⟩⟩

/-- 95_test_vectors.md section 2.1: must-be-zero bits of ARG set, low ones under a row without an argument. -/
theorem witness_ReservedWords_arg :
    (Instr.ticTakeNmi.tableRow ∈ opRows ∧ opSelector 0x21010001 = opSelector Instr.ticTakeNmi.tableRow.1 ∧
      0x21010001 &&& Instr.ticTakeNmi.tableRow.2 ≠ Instr.ticTakeNmi.tableRow.1) ∧
    ((Instr.dkcKeyEnq 0).tableRow ∈ opRows ∧ opSelector 0x30100105 = opSelector (Instr.dkcKeyEnq 0).tableRow.1 ∧
      0x30100105 &&& (Instr.dkcKeyEnq 0).tableRow.2 ≠ (Instr.dkcKeyEnq 0).tableRow.1) := by decide

theorem witness_ReservedWords_row :
    ((Instr.ticTick 0).tableRow ∈ opRows ∧ 0x2100FFFF &&& (Instr.ticTick 0).tableRow.2 = (Instr.ticTick 0).tableRow.1) ∧
    ((Instr.dkcKeyEnq 0).tableRow ∈ opRows ∧
      0x301000FF &&& (Instr.dkcKeyEnq 0).tableRow.2 = (Instr.dkcKeyEnq 0).tableRow.1) := by decide

theorem witness_StepRunsTheDecodedTransaction :
    (wordAt 0x30100005).inbox = .word 0x30100005 :: [] ∧
    decode (wordAt 0x30100005).cfg.soeMask 0x30100005 = .ok (.dkcKeyEnq 0x05) ∧
    decode (wordAt 0x30100005).cfg.soeMask 0x40000000 = .error .reservedKind := by decide

theorem witness_StepRunsTheDecodedTransaction_agents :
    (agentAt (.driver (cpu (.ret 0) false))).inbox = .agent (.driver (cpu (.ret 0) false)) :: [] ∧
    (agentAt (.host 0 0x10 0x0005)).inbox = .agent (.host 0 0x10 0x0005) :: [] ∧
    (agentAt (.elapse 1 0)).inbox = .agent (.elapse 1 0) :: [] ∧ State.reset.inbox = [] := by decide

/-- A running driver at its halt check, with a started timer and part of an output group, meets the invariant. -/
theorem witness_StepKeepsTheInvariant :
    let s := { drvAt .checkHalt with
      tic := { Tic.powerOn with tstate := .started, count := 3, period := 5, outputByte := 0x7F, transcript := [0x41] }
      inbox := [.agent (.driver (cpu (.ret 0) true))] }
    s.Inv ∧ (nextState (step s)).isSome = true := by
  refine ⟨⟨by decide, by decide, by decide, by decide, by decide, by decide, by decide, by decide +kernel, ?_, ?_,
    by decide⟩, by decide⟩
  · intro hz h
    cases h
  · intro since h
    cases h

theorem witness_ParametersNeverChange :
    (nextState (step (State.reset.withFetchWord 32 0x20060000))).any (fun t => t.events.length == 6) = true := by decide

theorem witness_EventHistoryOnlyGrows :
    (nextState (step ({ State.reset with events := [.halted] }.withFetchWord 32 0x20060000))).any
      (fun t => t.events.length == 7) = true := by decide

theorem witness_LatchChangesArePublished :
    (nextState (exec (.dkcWrDisp 0x1800 0x98) (dkcAt 0x90 1))).any
      (fun t => t.dkc.addr[0] != (dkcAt 0x90 1).dkc.addr[0]) = true := by decide

theorem witness_TransactionsTouchOnlyTheirUnit :
    (nextState (exec (.dkcKeyEnq 0x05) State.reset)).isSome = true ∧
    (nextState (exec .ticSetNmi State.reset)).isSome = true ∧ (nextState (exec .drvCancel State.reset)).isSome = true ∧
    wordUnit (encode (.dkcKeyEnq 0x05)) ≠ 1 ∧ wordUnit (encode .ticSetNmi) ≠ 0 ∧
    wordUnit (encode .drvCancel) ≠ 1 ∧ wordUnit (encode .ticSetNmi) ≠ 2 := by decide

theorem witness_HostSees :
    (Event.halted.source ≠ (Event.serialChar 0x41).source) ∧
    ((Event.serialChar 0x41).source = (Event.serialChar 0x42).source ∧
      Event.serialChar 0x41 ≠ Event.serialChar 0x42) := by decide

/-- R72's own case: a new transcript character before a latch write that the driver made earlier, and the other way round. -/
theorem witness_HostSees_controllers :
    hostMaySee [.halted, .latchWrite .addr 1 0x76, .serialChar 0x41] [.halted, .serialChar 0x41, .latchWrite .addr 1 0x76] ∧
    hostMaySee [.serialChar 0x41, .latchWrite .data 2 0x7D] [.latchWrite .data 2 0x7D, .serialChar 0x41] :=
  ⟨fun u => by cases u <;> decide, fun u => by cases u <;> decide⟩

/-- P6 row 2, and the same with the latch set: the CPU's step begins with the take. -/
theorem test_cpuEntry_takes_nmi :
    (nextState (driverMove (cpu (.ret 0) false) (drvAt .cpuEntry))).map (fun t => (t.ret, t.drv.pos)) =
      some (.flag false, .cpuBody) ∧
    (nextState (driverMove (cpu (.ret 0) false) ((drvAt .cpuEntry).withTic { Tic.powerOn with nmi := true }))).map
      (fun t => (t.ret, t.tic.nmi)) = some (.flag true, false) := by decide

end Sys2Proof.Tests
end

section
/-! The key queue over runs of transactions (O8): the general rules of `runAll`, what one read and one enqueue do, and
the record of a whole run of them. -/

namespace Sys2Proof.Machine

/-! Runs of transactions -/

@[simp] theorem runAll_nil (s : State) : runAll [] s = some ([], s) := rfl

/-- A run begins with its first transaction, whose value is listed first where the row returns one. -/
theorem runAll_cons_of_next {i : Instr} {s t : State} (h : exec i s = .next t) (is : List Instr) :
    runAll (i :: is) s =
      (runAll is t).map fun p => (if i.returnsValue then t.ret :: p.1 else p.1, p.2) := by
  simp only [runAll, h, nextState]
  cases runAll is t <;> rfl

/-- Every transaction of a run answers a next state. -/
theorem exec_next_of_runAll_cons {i : Instr} {is : List Instr} {s : State} {p : List Returned × State}
    (h : runAll (i :: is) s = some p) : ∃ t, exec i s = .next t := by
  cases e : exec i s with
  | next t => exact ⟨t, rfl⟩
  | fault r => simp [runAll, e, nextState] at h
  | refused r => simp [runAll, e, nextState] at h

/-- A run of two parts is a run of the first and then one of the second, and returns what they return. -/
theorem runAll_append {pre post : List Instr} {s u : State} {rs : List Returned}
    (h : runAll (pre ++ post) s = some (rs, u)) :
    ∃ before t after, runAll pre s = some (before, t) ∧ runAll post t = some (after, u) ∧ rs = before ++ after := by
  induction pre generalizing s rs with
  | nil => exact ⟨[], s, rs, rfl, h, rfl⟩
  | cons i pre ih =>
    obtain ⟨t, ht⟩ := exec_next_of_runAll_cons h
    rw [List.cons_append, runAll_cons_of_next ht, Option.map_eq_some_iff] at h
    obtain ⟨⟨rs', u'⟩, hrun, hp⟩ := h
    obtain ⟨rfl, rfl⟩ := Prod.mk.inj hp
    obtain ⟨before, v, after, hpre, hpost, rfl⟩ := ih hrun
    refine ⟨if i.returnsValue then t.ret :: before else before, v, after, ?_, hpost, ?_⟩
    · rw [runAll_cons_of_next ht, hpre, Option.map_some]
    · cases i.returnsValue <;> rfl

/-! One read and one enqueue -/

/-- A read returns and removes the head of the queue, and returns 0x00 for an empty one (R101). -/
theorem exec_dkcRdKey (a : Half) (s : State) :
    exec (.dkcRdKey a) s = .next { s with
      dkc := { s.dkc with keyq := s.dkc.keyq.tail }, ret := .byte (s.dkc.keyq.headD 0x00) } := by
  have hexec : exec (.dkcRdKey a) s = .next (dequeueKey s) := rfl
  obtain ⟨hq, hd⟩ | ⟨k, q, hq, hd⟩ := dequeueKey_cases s
  · have htail : s.dkc.keyq.tail = s.dkc.keyq := by rw [hq, List.tail_nil]
    have hhead : s.dkc.keyq.headD 0x00 = 0x00 := by rw [hq, List.headD_nil]
    rw [hexec, hd, htail, hhead]
  · rw [hexec, hd, hq]
    rfl

/-- An enqueue appends its code (R107). -/
theorem exec_dkcKeyEnq (b : Byte) (s : State) :
    exec (.dkcKeyEnq b) s = .next { s with dkc := { s.dkc with keyq := s.dkc.keyq ++ [b] } } := rfl

/-- In a run that answers, a read at any place returns the head of the queue that the transactions before it leave. -/
theorem runAll_read_returns_head {pre post : List Instr} {a : Half} {s u : State} {rs : List Returned}
    (h : runAll (pre ++ .dkcRdKey a :: post) s = some (rs, u)) :
    ∃ before after t, runAll pre s = some (before, t) ∧
      rs = before ++ .byte (t.dkc.keyq.headD 0x00) :: after := by
  obtain ⟨before, t, rest, hpre, hpost, rfl⟩ := runAll_append h
  rw [runAll_cons_of_next (exec_dkcRdKey a t), Option.map_eq_some_iff] at hpost
  obtain ⟨⟨after, u'⟩, -, hp⟩ := hpost
  obtain ⟨rfl, rfl⟩ := Prod.mk.inj hp
  exact ⟨before, after, t, hpre, rfl⟩

/-! Runs of reads and enqueues -/

/-- The code a transaction enqueues, if any. -/
def enqueuedCode (i : Instr) : Option Byte :=
  match i with
  | .dkcKeyEnq b => some b
  | _ => none

/-- A read of the data register. -/
def isKeyRead (i : Instr) : Bool :=
  match i with
  | .dkcRdKey _ => true
  | _ => false

@[simp] theorem enqueuedCode_dkcRdKey (a : Half) : enqueuedCode (.dkcRdKey a) = none := rfl
@[simp] theorem enqueuedCode_dkcKeyEnq (b : Byte) : enqueuedCode (.dkcKeyEnq b) = some b := rfl
@[simp] theorem isKeyRead_dkcRdKey (a : Half) : isKeyRead (.dkcRdKey a) = true := rfl
@[simp] theorem isKeyRead_dkcKeyEnq (b : Byte) : isKeyRead (.dkcKeyEnq b) = false := rfl

/-- The accesses `is` to a key queue that holds `queued` serve the codes `served`, return `rs` and leave `q` queued. -/
structure KeyService (queued : List Byte) (is : List Instr) (served : List Byte) (rs : List Returned)
    (q : List Byte) : Prop where
  /-- First in, first out, and each once (R73). -/
  fifo : served ++ q = queued ++ is.filterMap enqueuedCode
  /-- The codes served are among the values returned, in order. -/
  returned : (served.map Returned.byte).Sublist rs
  /-- Each read returns one value. -/
  one_per_read : rs.length = is.countP isKeyRead
  /-- Whatever else is returned is the 0x00 of an empty queue (R101). -/
  filler : rs.filter (· != .byte 0x00) = (served.map Returned.byte).filter (· != .byte 0x00)

namespace KeyService

variable {queued served q : List Byte} {is : List Instr} {rs : List Returned}

theorem nil (queued : List Byte) : KeyService queued [] [] [] queued :=
  ⟨by simp, List.Sublist.refl _, rfl, rfl⟩

/-- A read of an empty queue serves no code. -/
theorem read_empty (a : Half) (h : KeyService [] is served rs q) :
    KeyService [] (.dkcRdKey a :: is) served (.byte 0x00 :: rs) q where
  fifo := by simpa [List.filterMap_cons] using h.fifo
  returned := h.returned.cons _
  one_per_read := by simp [h.one_per_read, List.countP_cons]
  filler := by simpa using h.filler

/-- A read of a queue with a code serves its head. -/
theorem read_head (a : Half) (k : Byte) (h : KeyService queued is served rs q) :
    KeyService (k :: queued) (.dkcRdKey a :: is) (k :: served) (.byte k :: rs) q where
  fifo := by simpa [List.filterMap_cons] using h.fifo
  returned := h.returned.cons_cons _
  one_per_read := by simp [h.one_per_read, List.countP_cons]
  filler := by simp only [List.map_cons, List.filter_cons, h.filler]

/-- An enqueued code stands behind those queued before it. -/
theorem enqueue (b : Byte) (h : KeyService (queued ++ [b]) is served rs q) :
    KeyService queued (.dkcKeyEnq b :: is) served rs q where
  fifo := by simpa using h.fifo
  returned := h.returned
  one_per_read := by simpa using h.one_per_read
  filler := h.filler

end KeyService

/-- A run of enqueues and reads answers, changes nothing but the queue and the place of the returned value, and serves
the queue. -/
theorem runAll_keyService (is : List Instr) (s : State)
    (his : ∀ i ∈ is, (∃ a, i = .dkcRdKey a) ∨ ∃ b, i = .dkcKeyEnq b) :
    ∃ served rs r q, runAll is s = some (rs, { s with dkc := { s.dkc with keyq := q }, ret := r }) ∧
      KeyService s.dkc.keyq is served rs q := by
  induction is generalizing s with
  | nil => exact ⟨[], [], s.ret, s.dkc.keyq, rfl, .nil _⟩
  | cons i is ih =>
    obtain ⟨hi, htail⟩ := List.forall_mem_cons.mp his
    obtain ⟨a, rfl⟩ | ⟨b, rfl⟩ := hi
    · obtain ⟨served, rs, r, q, hrun, hserve⟩ := ih { s with
        dkc := { s.dkc with keyq := s.dkc.keyq.tail }, ret := .byte (s.dkc.keyq.headD 0x00) } htail
      have hcons := runAll_cons_of_next (exec_dkcRdKey a s) is
      rw [hrun, Option.map_some] at hcons
      cases hq : s.dkc.keyq with
      | nil =>
        simp only [hq, List.tail_nil] at hserve
        exact ⟨served, _, r, q, hcons, by simpa [hq, Instr.returnsValue] using hserve.read_empty a⟩
      | cons k queued =>
        simp only [hq, List.tail_cons] at hserve
        exact ⟨k :: served, _, r, q, hcons, by simpa [hq, Instr.returnsValue] using hserve.read_head a k⟩
    · obtain ⟨served, rs, r, q, hrun, hserve⟩ := ih { s with dkc := { s.dkc with keyq := s.dkc.keyq ++ [b] } } htail
      refine ⟨served, rs, r, q, ?_, hserve.enqueue b⟩
      rw [runAll_cons_of_next (exec_dkcKeyEnq b s), hrun]
      rfl

/-- Settles O8: the service record of the run, by induction on the accesses, and the run cut at each read. -/
theorem keysAreServedInOrder : Obligations.KeysAreServedInOrder := by
  intro is s his
  obtain ⟨served, rs, r, q, hrun, hserve⟩ := runAll_keyService is s his
  refine ⟨served, rs, r, q, hrun, hserve.fifo, hserve.returned, hserve.one_per_read, hserve.filler, ?_⟩
  rintro pre post a rfl
  obtain ⟨before, after, t, hpre, hrs⟩ := runAll_read_returns_head hrun
  exact ⟨before, after, t, hpre, hrs, exec_dkcRdKey a t⟩

end Sys2Proof.Machine
end

section
/-! One access of the display/keyboard controller (O1, O2, O5, O6, O7): the whole next state of each transaction that the
key queue's section does not give, and the settlements. -/

namespace Sys2Proof.Machine

/-- A read of the control register returns 0x00 whatever the DKC holds (R102). -/
theorem exec_dkcRdStatus (a : Half) (s : State) :
    exec (.dkcRdStatus a) s = .next { s with ret := .byte 0x00 } := rfl

/-- A read of an unassigned DKC address returns 0x00 (R103). -/
theorem exec_dkcRdNone (a : Half) (s : State) :
    exec (.dkcRdNone a) s = .next { s with ret := .byte 0x00 } := rfl

/-- A control-register write stores its value and restarts the fill (R105). -/
theorem exec_dkcWrCtrl (a : Half) (v : Byte) (s : State) :
    exec (.dkcWrCtrl a v) s = .next { s with dkc := { s.dkc with ctrl := v, fseq := 1 } } := rfl

/-- A write of an unassigned DKC address has no effect (R106). -/
theorem exec_dkcWrNone (a : Half) (v : Byte) (s : State) : exec (.dkcWrNone a v) s = .next s := rfl

/-- Settles O1: the head and the tail of the queue that a read returns and leaves, for an empty queue and for one with a
code. -/
theorem keyReadDequeuesOldestCode : Obligations.KeyReadDequeuesOldestCode := by
  intro a s
  constructor
  · intro hempty
    have htail : s.dkc.keyq.tail = s.dkc.keyq := by rw [hempty, List.tail_nil]
    have hhead : s.dkc.keyq.headD 0x00 = 0x00 := by rw [hempty, List.headD_nil]
    rw [exec_dkcRdKey, htail, hhead]
  · intro k q hq
    rw [exec_dkcRdKey, hq, List.tail_cons, List.headD_cons]

/-- Settles O2: each of the two reads gives 0x00 and keeps every other field. -/
theorem otherDkcReadsReturnZero : Obligations.OtherDkcReadsReturnZero :=
  fun a s => ⟨exec_dkcRdStatus a s, exec_dkcRdNone a s⟩

/-- Settles O5: no case of the value written is told apart. -/
theorem controlWriteStoresAndRestarts : Obligations.ControlWriteStoresAndRestarts :=
  exec_dkcWrCtrl

/-- Settles O6: the next state is the state itself, its counter and its events included. -/
theorem unmappedDkcWriteIsIgnored : Obligations.UnmappedDkcWriteIsIgnored :=
  exec_dkcWrNone

/-- Settles O7: the queue has no bound at which a code would be dropped. -/
theorem keyEnqueueAppends : Obligations.KeyEnqueueAppends :=
  exec_dkcKeyEnq

end Sys2Proof.Machine
end

section
/-! Writes of the interval timer's registers (O12, O14): the next state of a start command and of each period write, the
two new periods as numbers, and the settlements. -/

namespace Sys2Proof.Machine

/-- A start command sets `started` and reloads the count, whatever the timer's state (R124). -/
theorem exec_ticWrCmdStart (a : Half) (v : Byte) (s : State) :
    exec (.ticWrCmdStart a v) s =
      .next { s with tic := { s.tic with tstate := .started, count := s.tic.period } } := rfl

/-- A write of the period's low byte changes the period alone (R125). -/
theorem exec_ticWrPlo (a : Half) (v : Byte) (s : State) :
    exec (.ticWrPlo a v) s =
      .next { s with tic := { s.tic with period := periodWithLow s.tic.period v } } := rfl

/-- A write of the period's high byte changes the period alone (R126). -/
theorem exec_ticWrPhi (a : Half) (v : Byte) (s : State) :
    exec (.ticWrPhi a v) s =
      .next { s with tic := { s.tic with period := periodWithHigh s.tic.period v } } := rfl

/-- The bits above the low byte stay, and the byte fills the bits below them. -/
theorem periodWithLow_toNat (p : Half) (v : Byte) :
    (periodWithLow p v).toNat = p.toNat / 256 * 256 + v.toNat := by
  have hmask : p &&& 0xFF00#16 = p >>> 8 <<< 8 := (BitVec.shiftLeft_ushiftRight (n := 8)).symm
  have hkept : (p &&& 0xFF00#16).toNat = (p.toNat / 256) <<< 8 := by
    rw [hmask, BitVec.toNat_shiftLeft, BitVec.toNat_ushiftRight, Nat.shiftRight_eq_div_pow, Nat.shiftLeft_eq]
    have := p.isLt
    omega
  rw [periodWithLow, BitVec.toNat_or, hkept, BitVec.toNat_setWidth_of_le (by decide),
    ← Nat.shiftLeft_add_eq_or_of_lt v.isLt, Nat.shiftLeft_eq]

/-- The low byte stays, and the low six bits of the byte written are all that stands above it. -/
theorem periodWithHigh_toNat (p : Half) (v : Byte) :
    (periodWithHigh p v).toNat = p.toNat % 256 + v.toNat % 64 * 256 := by
  have hkept : (p &&& 0x00FF#16).toNat = p.toNat % 256 := Nat.and_two_pow_sub_one_eq_mod p.toNat 8
  have hmasked : (v &&& 0x3F#8).toNat = v.toNat % 64 := Nat.and_two_pow_sub_one_eq_mod v.toNat 6
  have hplaced : ((v &&& 0x3F#8).setWidth 16 <<< 8).toNat = (v.toNat % 64) <<< 8 := by
    rw [BitVec.toNat_shiftLeft, BitVec.toNat_setWidth_of_le (by decide), hmasked, Nat.shiftLeft_eq]
    omega
  rw [periodWithHigh, BitVec.toNat_or, hkept, hplaced, Nat.or_comm,
    ← Nat.shiftLeft_add_eq_or_of_lt (Nat.mod_lt _ (by decide)), Nat.shiftLeft_eq, Nat.add_comm]

/-- Settles O12: the reload reads the period alone, so no timer state is told apart. -/
theorem startCommandReloadsTheCount : Obligations.StartCommandReloadsTheCount :=
  exec_ticWrCmdStart

/-- Settles O14: the two new periods, each with its value as a number. -/
theorem periodWritesReplaceTheirBits : Obligations.PeriodWritesReplaceTheirBits :=
  fun a v s => ⟨periodWithLow s.tic.period v, periodWithHigh s.tic.period v,
    exec_ticWrPlo a v s, periodWithLow_toNat s.tic.period v,
    exec_ticWrPhi a v s, periodWithHigh_toNat s.tic.period v⟩

end Sys2Proof.Machine
end

section
/-! Takes of the interrupt latches (O20): the next state of each take, and the settlement. -/

namespace Sys2Proof.Machine

/-- Taking NMI returns the latch as it stood and leaves it clear, in one step (R140). -/
theorem exec_ticTakeNmi (s : State) :
    exec .ticTakeNmi s = .next { s with tic := { s.tic with nmi := false }, ret := .flag s.tic.nmi } := rfl

/-- Taking INT returns the latch as it stood and leaves it clear, in one step (R141). -/
theorem exec_ticTakeInt (s : State) :
    exec .ticTakeInt s = .next { s with tic := { s.tic with intr := false }, ret := .flag s.tic.intr } := rfl

/-- Taking the reset request returns the latch as it stood and leaves it clear, in one step (R142). -/
theorem exec_ticTakeReset (s : State) :
    exec .ticTakeReset s =
      .next { s with tic := { s.tic with rstreq := false }, ret := .flag s.tic.rstreq } := rfl

/-- Taking the interrupt-vector data returns the byte as it stood and leaves 0x00, in one step (R143). -/
theorem exec_ticTakeData (s : State) :
    exec .ticTakeData s =
      .next { s with tic := { s.tic with vdata := 0x00 }, ret := .byte s.tic.vdata } := rfl

/-- Settles O20: the value each take returns is read before the same step clears its latch. -/
theorem takesReturnAndClearTheirLatch : Obligations.TakesReturnAndClearTheirLatch :=
  fun s => ⟨exec_ticTakeNmi s, exec_ticTakeInt s, exec_ticTakeReset s, exec_ticTakeData s⟩

end Sys2Proof.Machine
end

section
/-! The serial output register with its enable bit clear (O28): the write's next state, and the settlement. -/

namespace Sys2Proof.Machine

/-- A serial write with the output-enable bit clear is a no-op: the accumulator, its bit counter, the
transcript and the event trace are among what stays (R163). -/
theorem exec_ticWrSerOff (a : Half) (v : Byte) (s : State) :
    exec (.ticWrSerOff a v) s = .next s := rfl

/-- Settles O28: the write's whole next state is the state it began in. -/
theorem serialWriteWithoutEnableIsIgnored : Obligations.SerialWriteWithoutEnableIsIgnored :=
  exec_ticWrSerOff

end Sys2Proof.Machine
end

section
/-! The cancellation token of the driver (O33): the cancel's next state, and the settlement. -/

namespace Sys2Proof.Machine

/-- A cancel sets the cancellation token and nothing else, whatever the driver state: the state and the
position of the driver are among what stays (R188). -/
theorem exec_drvCancel (s : State) :
    exec .drvCancel s = .next { s with drv := { s.drv with cancelReq := true } } := rfl

/-- Settles O33: neither the driver state nor the position of the loop is told apart. -/
theorem cancelSetsTheToken : Obligations.CancelSetsTheToken :=
  exec_drvCancel

end Sys2Proof.Machine
end

section
/-! Words and transactions (O45 to O48, O60): a word from its fields, the transaction each accepted word has, and the
selecting fields as numbers. -/

namespace Sys2Proof.Laws

/-! A word is the word of its fields -/

theorem busWord_fields (w : Word) : busWord (wordKind w) (wordUnit w) (wordAddr w) (wordData w) = w := by
  apply BitVec.eq_of_toNat_eq
  simp only [busWord_toNat, wordKind, wordUnit, wordAddr, wordData, toNat_field]
  have := w.isLt
  omega

theorem opWord_fields (w : Word) : opWord (wordKind w) (wordUnit w) (wordOp w) (wordArg w) = w := by
  apply BitVec.eq_of_toNat_eq
  simp only [opWord_toNat, wordKind, wordUnit, wordOp, wordArg, toNat_field]
  have := w.isLt
  omega

/-! Bus accesses -/

/-- The UNIT field that names a controller (R81). -/
def unitCode (u : BusUnit) : BitVec 4 :=
  match u with
  | .dkc => 0
  | .tic => 1

theorem busUnitOf_unitCode (u : BusUnit) : busUnitOf (unitCode u) = .ok u := by
  cases u <;> rfl

theorem busUnitOf_ok {unit : BitVec 4} {u : BusUnit} (h : busUnitOf unit = .ok u) : unit = unitCode u := by
  unfold busUnitOf at h
  split at h
  · cases h; assumption
  · split at h
    · cases h; assumption
    · cases h

/-- The transaction of a bus read is well formed, and its word is the read's. -/
theorem busRead_spec (soe : Byte) (u : BusUnit) (a : Half) :
    (busRead u a).wf soe = true ∧ encode (busRead u a) = busWord 0 (unitCode u) a 0 := by
  cases u with
  | dkc => cases h : dkcSel a <;> simp [busRead, decodeDkcRead, h, Instr.wf, encode, unitCode]
  | tic => cases h : ticSel a <;> simp [busRead, decodeTicRead, h, Instr.wf, encode, unitCode]

/-- The transaction of a timer command is well formed, and its word is the write's. -/
theorem decodeTimerCommand_spec (soe : Byte) {a : Half} (v : Byte) (h : ticSel a = .cmd) :
    (decodeTimerCommand a v).wf soe = true ∧ encode (decodeTimerCommand a v) = busWord 1 1 a v := by
  unfold decodeTimerCommand
  split_ifs with h0 h1 h2
  · simp [Instr.wf, encode, h, h0]
  · simp [Instr.wf, encode, h, h1]
  · simp [Instr.wf, encode, h, h2]
  · have h3 : timerCommand v = 3 := by
      generalize timerCommand v = c at *
      bv_omega
    simp [Instr.wf, encode, h, h3]

/-- The transaction of a bus write is well formed, and its word is the write's. -/
theorem busWrite_spec (soe : Byte) (u : BusUnit) (a : Half) (v : Byte) :
    (busWrite soe u a v).wf soe = true ∧ encode (busWrite soe u a v) = busWord 1 (unitCode u) a v := by
  cases u with
  | dkc => cases h : dkcSel a <;> simp [busWrite, decodeDkcWrite, h, Instr.wf, encode, unitCode]
  | tic =>
    cases h : ticSel a with
    | cmd => simpa [busWrite, decodeTicWrite, h, unitCode] using decodeTimerCommand_spec soe v h
    | ser => cases hv : serialEnabled soe v <;> simp [busWrite, decodeTicWrite, h, hv, Instr.wf, encode, unitCode]
    | plo => simp [busWrite, decodeTicWrite, h, Instr.wf, encode, unitCode]
    | phi => simp [busWrite, decodeTicWrite, h, Instr.wf, encode, unitCode]
    | none => simp [busWrite, decodeTicWrite, h, Instr.wf, encode, unitCode]

theorem decodeBusRead_ok {unit : BitVec 4} {a : Half} {data : Byte} {i : Instr}
    (h : decodeBusRead unit a data = .ok i) : ∃ u, unit = unitCode u ∧ data = 0 ∧ i = busRead u a := by
  unfold decodeBusRead at h
  split at h
  · cases h
  · next u hu =>
    split at h
    · cases h; exact ⟨u, busUnitOf_ok hu, ‹_›, rfl⟩
    · cases h

theorem decodeBusWrite_ok {soe : Byte} {unit : BitVec 4} {a : Half} {v : Byte} {i : Instr}
    (h : decodeBusWrite soe unit a v = .ok i) : ∃ u, unit = unitCode u ∧ i = busWrite soe u a v := by
  unfold decodeBusWrite at h
  split at h
  · cases h
  · next u hu => cases h; exact ⟨u, busUnitOf_ok hu, rfl⟩

/-! Operations -/

/-- An operation without an argument, where it is accepted, is the one its row names, with the row's word. -/
theorem withZeroArg_spec {soe : Byte} {kind unit : BitVec 4} {op : Byte} {arg : Half} {i j : Instr}
    (h : withZeroArg arg i = .ok j) (hwf : i.wf soe = true) (henc : encode i = opWord kind unit op 0) :
    j.wf soe = true ∧ encode j = opWord kind unit op arg := by
  unfold withZeroArg at h
  split at h
  · next harg =>
    cases h
    exact ⟨hwf, harg ▸ henc⟩
  · cases h

/-- An argument with ARG[15:8] = 0 is the byte it is read as (R82). -/
theorem setWidth_lowByte {arg : Half} (h : arg.extractLsb' 8 8 = 0) : (arg.extractLsb' 0 8).setWidth 16 = arg := by
  have hi : (arg.extractLsb' 8 8).toNat = 0 := congrArg BitVec.toNat h
  rw [toNat_field] at hi
  apply BitVec.eq_of_toNat_eq
  rw [BitVec.toNat_setWidth_of_le (by decide), toNat_field]
  have := arg.isLt
  omega

/-- An operation with a byte argument, where it is accepted, is the one its row names, with the row's word. -/
theorem withByteArg_spec {soe : Byte} {kind unit : BitVec 4} {op : Byte} {arg : Half} {mk : Byte → Instr} {j : Instr}
    (h : withByteArg arg mk = .ok j) (hwf : ∀ b, (mk b).wf soe = true)
    (henc : ∀ b, encode (mk b) = opWord kind unit op (b.setWidth 16)) :
    j.wf soe = true ∧ encode j = opWord kind unit op arg := by
  unfold withByteArg at h
  split at h
  · next harg =>
    cases h
    exact ⟨hwf _, (henc _).trans (congrArg _ (setWidth_lowByte harg))⟩
  · cases h

/-- An accepted driver operation is well formed, and its word has the fields it was decoded from. -/
theorem decodeDriverOp_spec (soe : Byte) {unit : BitVec 4} {op : Byte} {arg : Half} {i : Instr}
    (h : decodeDriverOp unit op arg = .ok i) : i.wf soe = true ∧ encode i = opWord 2 unit op arg := by
  unfold decodeDriverOp at h
  split_ifs at h <;> subst unit op
  · exact withZeroArg_spec h rfl rfl
  · cases h
    exact ⟨rfl, rfl⟩
  · exact withZeroArg_spec h rfl rfl
  · exact withZeroArg_spec h rfl rfl
  · exact withZeroArg_spec h rfl rfl
  · exact withZeroArg_spec h rfl rfl
  · exact withZeroArg_spec h rfl rfl

/-- An accepted host operation is well formed, and its word has the fields it was decoded from. -/
theorem decodeHostOp_spec (soe : Byte) {unit : BitVec 4} {op : Byte} {arg : Half} {i : Instr}
    (h : decodeHostOp unit op arg = .ok i) : i.wf soe = true ∧ encode i = opWord 3 unit op arg := by
  unfold decodeHostOp at h
  split_ifs at h <;> subst unit op
  · exact withByteArg_spec h (fun _ => rfl) fun _ => rfl
  · exact withZeroArg_spec h rfl rfl
  · exact withZeroArg_spec h rfl rfl
  · exact withByteArg_spec h (fun _ => rfl) fun _ => rfl
  · exact withZeroArg_spec h rfl rfl
  · exact withByteArg_spec h (fun _ => rfl) fun _ => rfl
  · exact withZeroArg_spec h rfl rfl
  · exact withZeroArg_spec h rfl rfl
  · exact withZeroArg_spec h rfl rfl
  · exact withZeroArg_spec h rfl rfl
  · exact withZeroArg_spec h rfl rfl

/-! The two round trips -/

/-- Settles O47: the row lemma of each constructor. -/
theorem decodeOfEncodeIsTheTransaction : Obligations.DecodeOfEncodeIsTheTransaction := by
  intro soe i hwf
  cases i with
  | dkcRdKey a => exact RoundTrip.dkcRdKey a soe hwf
  | dkcRdStatus a => exact RoundTrip.dkcRdStatus a soe hwf
  | dkcRdNone a => exact RoundTrip.dkcRdNone a soe hwf
  | dkcWrDisp a v => exact RoundTrip.dkcWrDisp a v soe hwf
  | dkcWrCtrl a v => exact RoundTrip.dkcWrCtrl a v soe hwf
  | dkcWrNone a v => exact RoundTrip.dkcWrNone a v soe hwf
  | ticWrCmdNop a v => exact RoundTrip.ticWrCmdNop a v soe hwf
  | ticWrCmdAbort a v => exact RoundTrip.ticWrCmdAbort a v soe hwf
  | ticWrCmdPend a v => exact RoundTrip.ticWrCmdPend a v soe hwf
  | ticWrCmdStart a v => exact RoundTrip.ticWrCmdStart a v soe hwf
  | ticWrPlo a v => exact RoundTrip.ticWrPlo a v soe hwf
  | ticWrPhi a v => exact RoundTrip.ticWrPhi a v soe hwf
  | ticWrSerOn a v => exact RoundTrip.ticWrSerOn a v soe hwf
  | ticWrSerOff a v => exact RoundTrip.ticWrSerOff a v soe hwf
  | ticWrNone a v => exact RoundTrip.ticWrNone a v soe hwf
  | ticRdSer a => exact RoundTrip.ticRdSer a soe hwf
  | ticRdNone a => exact RoundTrip.ticRdNone a soe hwf
  | ticTick n => exact RoundTrip.ticTick n soe hwf
  | ticTakeNmi => exact RoundTrip.ticTakeNmi soe hwf
  | ticTakeInt => exact RoundTrip.ticTakeInt soe hwf
  | ticTakeReset => exact RoundTrip.ticTakeReset soe hwf
  | ticTakeData => exact RoundTrip.ticTakeData soe hwf
  | ticSetNmi => exact RoundTrip.ticSetNmi soe hwf
  | dkcBanner => exact RoundTrip.dkcBanner soe hwf
  | dkcKeyEnq b => exact RoundTrip.dkcKeyEnq b soe hwf
  | ticSetSid b => exact RoundTrip.ticSetSid b soe hwf
  | ticSetInt => exact RoundTrip.ticSetInt soe hwf
  | ticSetData b => exact RoundTrip.ticSetData b soe hwf
  | ticReqReset => exact RoundTrip.ticReqReset soe hwf
  | dkcReset => exact RoundTrip.dkcReset soe hwf
  | ticReset => exact RoundTrip.ticReset soe hwf
  | dkcPowerOn => exact RoundTrip.dkcPowerOn soe hwf
  | ticPowerOn => exact RoundTrip.ticPowerOn soe hwf
  | drvCancel => exact RoundTrip.drvCancel soe hwf
  | drvStart => exact RoundTrip.drvStart soe hwf

/-- Settles O48: the transaction of each KIND has the word of the fields it was decoded from. -/
theorem encodeOfDecodeIsTheWord : Obligations.EncodeOfDecodeIsTheWord := by
  intro soe w i h
  unfold decode at h
  split_ifs at h with h0 h1 h2 h3
  · obtain ⟨u, hunit, hdata, rfl⟩ := decodeBusRead_ok h
    have hw := busWord_fields w
    rw [h0, hunit, hdata] at hw
    exact (busRead_spec soe u _).imp_right fun e => e.trans hw
  · obtain ⟨u, hunit, rfl⟩ := decodeBusWrite_ok h
    have hw := busWord_fields w
    rw [h1, hunit] at hw
    exact (busWrite_spec soe u _ _).imp_right fun e => e.trans hw
  · have hw := opWord_fields w
    rw [h2] at hw
    exact (decodeDriverOp_spec soe h).imp_right fun e => e.trans hw
  · have hw := opWord_fields w
    rw [h3] at hw
    exact (decodeHostOp_spec soe h).imp_right fun e => e.trans hw

/-! The selecting fields as numbers -/

/-- The DKC decode reads the address modulo its window (R61). -/
theorem dkcSel_eq (a : Half) :
    dkcSel a = if a.toNat % 512 = 0 then .data else if a.toNat % 512 = 256 then .ctrl else .none := by
  simp [dkcSel, dkcDataOff, dkcCtrlOff, ← BitVec.toNat_inj]

/-- The TIC decode reads the low byte of the address (R62). -/
theorem ticSel_eq (a : Half) :
    ticSel a =
      if a.toNat % 256 = 0x20 then .cmd
      else if a.toNat % 256 = 0x24 then .plo
      else if a.toNat % 256 = 0x25 then .phi
      else if a.toNat % 256 = 0xFF then .ser
      else .none := by
  simp [ticSel, ticCmdPort, ticPloPort, ticPhiPort, ticSerPort, ← BitVec.toNat_inj]

/-- The timer's command is the number of the top two bits (R120). -/
theorem timerCommand_eq_iff (v : Byte) (c : BitVec 2) : timerCommand v = c ↔ v.toNat / 64 = c.toNat := by
  rw [timerCommand, ← BitVec.toNat_inj, toNat_field]
  have := v.isLt
  omega

/-- Settles O45: within one window, the address modulo 0x200 is its distance from the base. -/
theorem dkcWindowRegisters : Obligations.DkcWindowRegisters := by
  intro base a hbase hlo hhi
  have hdata : a.toNat % 512 = 0 ↔ a = base := by
    rw [← BitVec.toNat_inj]
    omega
  have hctrl : a.toNat % 512 = 256 ↔ a.toNat = base.toNat + 0x100 := by omega
  simp only [dkcSel_eq, hdata, hctrl]

/-- Settles O46: each word is one closed computation of the decoder. -/
theorem sampleWordsDecode : Obligations.SampleWordsDecode := by
  unfold Obligations.SampleWordsDecode
  decide

/-- The row of a bus read word of a controller (R86 steps 2 to 4). -/
theorem decode_busRead (soe : Byte) (u : BusUnit) (a : Half) :
    decode soe (busWord 0 (unitCode u) a 0) = .ok (busRead u a) := by
  simp [decode, decodeBusRead, busUnitOf_unitCode]

/-- The row of a bus write word of a controller (R86 steps 2 and 4). -/
theorem decode_busWrite (soe : Byte) (u : BusUnit) (a : Half) (v : Byte) :
    decode soe (busWord 1 (unitCode u) a v) = .ok (busWrite soe u a v) := by
  simp [decode, decodeBusWrite, busUnitOf_unitCode]

/-- The rows of a timer command by the number of its top two bits (R120). -/
theorem decodeTimerCommand_eq (a : Half) (v : Byte) :
    decodeTimerCommand a v =
      if v.toNat / 64 = 0 then .ticWrCmdNop a v
      else if v.toNat / 64 = 1 then .ticWrCmdAbort a v
      else if v.toNat / 64 = 2 then .ticWrCmdPend a v
      else .ticWrCmdStart a v := by
  simp only [decodeTimerCommand, timerCommand_eq_iff]
  rfl

/-- The serial port is the one port whose read is a row of its own (R129). -/
theorem decodeTicRead_eq (a : Half) :
    decodeTicRead a = if ticSel a = .ser then .ticRdSer a else .ticRdNone a := by
  cases h : ticSel a <;> simp [decodeTicRead, h]

theorem ticSel_eq_ser_iff (a : Half) : ticSel a = .ser ↔ a.toNat % 256 = 0xFF := by
  rw [ticSel_eq]
  split_ifs <;> simp_all

/-- Settles O60: the port as a number, then the command or the mask. -/
theorem ticPortsSelectTheirRows : Obligations.TicPortsSelectTheirRows := by
  intro soe a v
  constructor
  · refine (decode_busWrite soe .tic a v).trans (congrArg _ ?_)
    simp only [busWrite, decodeTicWrite, decodeTimerCommand_eq, serialEnabled]
    rw [ticSel_eq]
    by_cases hcmd : a.toNat % 256 = 0x20
    · simp only [if_pos hcmd]
    rw [if_neg hcmd, if_neg hcmd]
    by_cases hplo : a.toNat % 256 = 0x24
    · simp only [if_pos hplo]
    rw [if_neg hplo, if_neg hplo]
    by_cases hphi : a.toNat % 256 = 0x25
    · simp only [if_pos hphi]
    rw [if_neg hphi, if_neg hphi]
    by_cases hser : a.toNat % 256 = 0xFF
    · by_cases hv : v &&& soe = 0 <;> simp [hser, hv]
    · simp only [if_neg hser]
  · refine (decode_busRead soe .tic a).trans (congrArg _ ?_)
    simp only [busRead, decodeTicRead_eq, ticSel_eq_ser_iff]

end Sys2Proof.Laws
end

section
/-! The opcode table (O49): the selecting bits of each operand, and the match and mask of each row. -/

namespace Sys2Proof.Laws

/-! Masked fields -/

/-- A bus word under a mask of KIND, UNIT and parts of ADDR and DATA. -/
theorem busWord_and {k u : BitVec 4} {a am a' : Half} {v vm v' : Byte} (ha : a &&& am = a') (hv : v &&& vm = v') :
    busWord k u a v &&& busWord 0xF 0xF am vm = busWord k u a' v' := by
  have hk : k &&& 0xF = k := BitVec.and_allOnes
  have hu : u &&& 0xF = u := BitVec.and_allOnes
  simp only [busWord]
  rw [BitVec.and_append, BitVec.and_append, BitVec.and_append, hk, hu, ha, hv]

/-- An operation's word under a mask of KIND, UNIT, OP and part of ARG. -/
theorem opWord_and (k u : BitVec 4) (op : Byte) (arg m : Half) :
    opWord k u op arg &&& opWord 0xF 0xF 0xFF m = opWord k u op (arg &&& m) := by
  have hk : k &&& 0xF = k := BitVec.and_allOnes
  have hu : u &&& 0xF = u := BitVec.and_allOnes
  have hop : op &&& 0xFF = op := BitVec.and_allOnes
  simp only [opWord]
  rw [BitVec.and_append, BitVec.and_append, BitVec.and_append, hk, hu, hop]

/-- A byte as an argument has no bit above its own (R82). -/
theorem setWidth_highByte (b : Byte) : b.setWidth 16 &&& 0xFF00 = 0x0000 := by
  have hmask : b.setWidth 16 &&& 0xFF00#16 = b.setWidth 16 >>> 8 <<< 8 :=
    (BitVec.shiftLeft_ushiftRight (n := 8)).symm
  have hshift : b.setWidth 16 >>> 8 = 0#16 := by
    apply BitVec.eq_of_toNat_eq
    rw [BitVec.toNat_ushiftRight, BitVec.toNat_setWidth_of_le (by decide), Nat.shiftRight_eq_div_pow]
    exact Nat.div_eq_of_lt b.isLt
  exact hmask.trans (by rw [hshift]; rfl)

/-- The offset in the DKC window that selects a register (R61). -/
def dkcSelOffset (x : DkcSel) : Option (BitVec 9) :=
  match x with
  | .data => some dkcDataOff
  | .ctrl => some dkcCtrlOff
  | .none => none

/-- The port that selects a TIC register (R62). -/
def ticSelPort (x : TicSel) : Option Byte :=
  match x with
  | .cmd => some ticCmdPort
  | .plo => some ticPloPort
  | .phi => some ticPhiPort
  | .ser => some ticSerPort
  | .none => none

/-- The bits of an address that select a DKC register, as its rows mask them. -/
theorem dkcSel_mask {a : Half} {x : DkcSel} {off : BitVec 9} (hx : dkcSel a = x) (hoff : dkcSelOffset x = some off) :
    a &&& 0x01FF = off.setWidth 16 := by
  have hmask : a &&& 0x01FF = (a.extractLsb' 0 9).setWidth 16 := by
    apply BitVec.eq_of_toNat_eq
    rw [BitVec.toNat_setWidth_of_le (by decide), toNat_field]
    exact (Nat.and_two_pow_sub_one_eq_mod a.toNat 9).trans (by omega)
  have hfield : a.extractLsb' 0 9 = off := by
    subst hx
    unfold dkcSel at hoff
    split_ifs at hoff <;> simp_all [dkcSelOffset]
  rw [hmask, hfield]

/-- The bits of an address that select a TIC port, as its rows mask them. -/
theorem ticSel_mask {a : Half} {x : TicSel} {p : Byte} (hx : ticSel a = x) (hp : ticSelPort x = some p) :
    a &&& 0x00FF = p.setWidth 16 := by
  have hmask : a &&& 0x00FF = (a.extractLsb' 0 8).setWidth 16 := by
    apply BitVec.eq_of_toNat_eq
    rw [BitVec.toNat_setWidth_of_le (by decide), toNat_field]
    exact (Nat.and_two_pow_sub_one_eq_mod a.toNat 8).trans (by omega)
  have hfield : a.extractLsb' 0 8 = p := by
    subst hx
    unfold ticSel at hp
    split_ifs at hp <;> simp_all [ticSelPort]
  rw [hmask, hfield]

/-- The bits of a byte that select a timer command (R120), as its rows mask them. -/
theorem timerCommand_mask {v : Byte} {c : BitVec 2} (h : timerCommand v = c) : v &&& 0xC0 = c.setWidth 8 <<< 6 := by
  have hmask : v &&& 0xC0 = v >>> 6 <<< 6 := (BitVec.shiftLeft_ushiftRight (n := 6)).symm
  have hfield : v >>> 6 = c.setWidth 8 := by
    apply BitVec.eq_of_toNat_eq
    rw [← h, BitVec.toNat_setWidth_of_le (by decide), timerCommand, toNat_field, BitVec.toNat_ushiftRight,
      Nat.shiftRight_eq_div_pow]
    have := v.isLt
    omega
  rw [hmask, hfield]

/-- The bit of a byte that enables the serial output under the table's mask (R162). -/
theorem serialEnabled_mask {v : Byte} {b : Bool} (h : serialEnabled 0x40 v = b) :
    v &&& 0x40 = if b then 0x40 else 0x00 := by
  have hbit : v &&& 0x40 = if v.getLsbD 6 = true then 0x40 else 0 := BitVec.and_twoPow v 6
  rw [← h, serialEnabled, hbit]
  cases v.getLsbD 6 <;> rfl

/-- The word of a transaction that is well formed under the table's mask matches its row. -/
theorem encode_matches_row {i : Instr} (h : i.wf 0x40 = true) : encode i &&& i.tableRow.2 = i.tableRow.1 := by
  cases i <;> simp only [Instr.wf, Bool.and_eq_true, Bool.not_eq_true', beq_iff_eq] at h
  case dkcRdKey a => exact busWord_and (am := 0x01FF) (vm := 0xFF) (dkcSel_mask h rfl) rfl
  case dkcRdStatus a => exact busWord_and (am := 0x01FF) (vm := 0xFF) (dkcSel_mask h rfl) rfl
  case dkcRdNone a => exact busWord_and (am := 0x0000) (vm := 0xFF) BitVec.and_zero rfl
  case dkcWrDisp a v => exact busWord_and (am := 0x01FF) (vm := 0x00) (dkcSel_mask h rfl) BitVec.and_zero
  case dkcWrCtrl a v => exact busWord_and (am := 0x01FF) (vm := 0x00) (dkcSel_mask h rfl) BitVec.and_zero
  case dkcWrNone a v => exact busWord_and (am := 0x0000) (vm := 0x00) BitVec.and_zero BitVec.and_zero
  case ticWrCmdNop a v =>
    exact busWord_and (am := 0x00FF) (vm := 0xC0) (ticSel_mask h.1 rfl) (timerCommand_mask h.2)
  case ticWrCmdAbort a v =>
    exact busWord_and (am := 0x00FF) (vm := 0xC0) (ticSel_mask h.1 rfl) (timerCommand_mask h.2)
  case ticWrCmdPend a v =>
    exact busWord_and (am := 0x00FF) (vm := 0xC0) (ticSel_mask h.1 rfl) (timerCommand_mask h.2)
  case ticWrCmdStart a v =>
    exact busWord_and (am := 0x00FF) (vm := 0xC0) (ticSel_mask h.1 rfl) (timerCommand_mask h.2)
  case ticWrPlo a v => exact busWord_and (am := 0x00FF) (vm := 0x00) (ticSel_mask h rfl) BitVec.and_zero
  case ticWrPhi a v => exact busWord_and (am := 0x00FF) (vm := 0x00) (ticSel_mask h rfl) BitVec.and_zero
  case ticWrSerOn a v =>
    exact busWord_and (am := 0x00FF) (vm := 0x40) (ticSel_mask h.1 rfl) (serialEnabled_mask h.2)
  case ticWrSerOff a v =>
    exact busWord_and (am := 0x00FF) (vm := 0x40) (ticSel_mask h.1 rfl) (serialEnabled_mask h.2)
  case ticWrNone a v => exact busWord_and (am := 0x0000) (vm := 0x00) BitVec.and_zero BitVec.and_zero
  case ticRdSer a => exact busWord_and (am := 0x00FF) (vm := 0xFF) (ticSel_mask h rfl) rfl
  case ticRdNone a => exact busWord_and (am := 0x0000) (vm := 0xFF) BitVec.and_zero rfl
  case ticTick n => exact (opWord_and 2 1 0x00 n 0).trans (congrArg _ BitVec.and_zero)
  case dkcKeyEnq b => exact (opWord_and 3 0 0x10 _ 0xFF00).trans (congrArg _ (setWidth_highByte b))
  case ticSetSid b => exact (opWord_and 3 1 0x11 _ 0xFF00).trans (congrArg _ (setWidth_highByte b))
  case ticSetData b => exact (opWord_and 3 1 0x13 _ 0xFF00).trans (congrArg _ (setWidth_highByte b))
  all_goals rfl

/-- Settles O49: the accepted word is the word of a well-formed transaction. -/
theorem acceptedWordMatchesItsTableRow : Obligations.AcceptedWordMatchesItsTableRow := by
  intro w i h
  obtain ⟨hwf, rfl⟩ := encodeOfDecodeIsTheWord 0x40 w i h
  exact encode_matches_row hwf

end Sys2Proof.Laws
end

section
/-! Completion and refusal (O37, O38): the transactions that answer a next state in every state, and the five that are
refused while the driver runs. -/

namespace Sys2Proof.Machine

/-- Settles O38: each arm but the five answers a next state without asking for the driver's state. -/
theorem everyOtherTransactionCompletes : Obligations.EveryOtherTransactionCompletes := by
  intro i s h
  cases i
  case dkcReset | ticReset | dkcPowerOn | ticPowerOn | drvStart => exact absurd h (by decide)
  all_goals exact ⟨_, rfl⟩

/-- What admits an operation on shared state (R193), where the driver is halted or cancelled. -/
theorem whenStopped_of_stopped {s : State} (t : State) (h : s.drv.dstate ≠ .running) : whenStopped s t = .next t :=
  if_pos ((Driver.stopped_iff s.drv).mpr h)

/-- What refuses an operation on shared state (R193), where the driver runs. -/
theorem whenStopped_of_running {s : State} (t : State) (h : s.drv.dstate = .running) :
    whenStopped s t = .refused .driverNotStopped :=
  if_neg fun hstopped => (Driver.stopped_iff s.drv).mp hstopped h

/-- A start is refused while the driver runs (R189). -/
theorem execDrvStart_of_running {s : State} (h : s.drv.dstate = .running) :
    execDrvStart s = .refused .driverNotStopped :=
  if_neg fun hstopped => (Driver.stopped_iff s.drv).mp hstopped h

/-- Settles O37: the four resets share one admission, and the start reads the same field. -/
theorem mutationsAreRefusedWhileRunning : Obligations.MutationsAreRefusedWhileRunning := by
  intro i s hi hrun
  simp only [Instr.needsStoppedDriver, Bool.or_eq_true, beq_iff_eq] at hi
  rcases hi with (((rfl | rfl) | rfl) | rfl) | rfl
  · exact whenStopped_of_running _ hrun
  · exact whenStopped_of_running _ hrun
  · exact whenStopped_of_running _ hrun
  · exact whenStopped_of_running _ hrun
  · exact execDrvStart_of_running hrun

end Sys2Proof.Machine
end

section
/-! Reserved words (O50): what each row of the operations is decoded to over every argument, and what the decoder
answers where no row applies. -/

namespace Sys2Proof.Laws
open Sys2Proof.Machine

/-! The rows of the operations -/

/-- The decoder keeps to the row `r` of an operation over every ARG: the words that match it are the row's, and one with
a must-be-zero bit set is refused for that (R86 step 5). -/
structure RowKept (r : Word × Word) (kind unit : BitVec 4) (op : Byte) (m : Half) : Prop where
  row_eq : r = (opWord kind unit op 0, opWord 0xF 0xF 0xFF m)
  accepted : ∀ (soe : Byte) (arg : Half), arg &&& m = 0 →
    ∃ i : Instr, i.tableRow = r ∧ decode soe (opWord kind unit op arg) = .ok i
  refused : ∀ (soe : Byte) (arg : Half), arg &&& m ≠ 0 → decode soe (opWord kind unit op arg) = .error .argNotZero

/-- A row without an argument. -/
theorem RowKept.of_zeroArg {kind unit : BitVec 4} {op : Byte} (i : Instr)
    (hrow : i.tableRow = (opWord kind unit op 0, opWord 0xF 0xF 0xFF 0xFFFF))
    (hdec : ∀ soe arg, decode soe (opWord kind unit op arg) = withZeroArg arg i) :
    RowKept i.tableRow kind unit op 0xFFFF := by
  have hmask (arg : Half) : arg &&& 0xFFFF = arg := BitVec.and_allOnes
  refine ⟨hrow, fun soe arg h => ⟨i, rfl, ?_⟩, fun soe arg h => ?_⟩
  · rw [hdec, withZeroArg, if_pos (hmask arg ▸ h)]
  · rw [hdec, withZeroArg, if_neg (hmask arg ▸ h)]

/-- The bits of an argument above its low byte, as the rows with a byte argument mask them. -/
theorem and_highByte_eq_zero_iff (arg : Half) : arg &&& 0xFF00#16 = 0 ↔ arg.extractLsb' 8 8 = 0 := by
  have hmask : arg &&& 0xFF00#16 = arg >>> 8 <<< 8 := (BitVec.shiftLeft_ushiftRight (n := 8)).symm
  have zero16 : (0 : Half).toNat = 0 := rfl
  have zero8 : (0 : Byte).toNat = 0 := rfl
  rw [hmask, ← BitVec.toNat_inj, ← BitVec.toNat_inj, toNat_field, BitVec.toNat_shiftLeft, BitVec.toNat_ushiftRight,
    Nat.shiftRight_eq_div_pow, Nat.shiftLeft_eq, zero16, zero8]
  have := arg.isLt
  omega

/-- A row with a byte argument. -/
theorem RowKept.of_byteArg {r : Word × Word} {kind unit : BitVec 4} {op : Byte} (mk : Byte → Instr)
    (hrow : r = (opWord kind unit op 0, opWord 0xF 0xF 0xFF 0xFF00)) (hmk : ∀ b, (mk b).tableRow = r)
    (hdec : ∀ soe arg, decode soe (opWord kind unit op arg) = withByteArg arg mk) :
    RowKept r kind unit op 0xFF00 := by
  refine ⟨hrow, fun soe arg h => ⟨_, hmk (arg.extractLsb' 0 8), ?_⟩, fun soe arg h => ?_⟩
  · rw [hdec, withByteArg, if_pos ((and_highByte_eq_zero_iff arg).mp h)]
  · rw [hdec, withByteArg, if_neg (mt (and_highByte_eq_zero_iff arg).mpr h)]

/-- The row of the one operation whose ARG is free, TIC.TICK. -/
theorem rowKept_ticTick : RowKept (Instr.ticTick 0).tableRow 2 1 0x00 0x0000 where
  row_eq := rfl
  accepted soe arg _ := ⟨.ticTick arg, rfl, by simp [decode, decodeDriverOp]⟩
  refused soe arg h := absurd BitVec.and_zero h

/-- The decoder keeps to each row of the operations. -/
theorem rowKept_of_mem {r : Word × Word} (hr : r ∈ opRows) : ∃ kind unit op m, RowKept r kind unit op m := by
  simp only [opRows, List.map_cons, List.map_nil, List.mem_cons, List.not_mem_nil, or_false] at hr
  rcases hr with rfl | rfl | rfl | rfl | rfl | rfl | rfl | rfl | rfl | rfl | rfl | rfl | rfl | rfl | rfl | rfl | rfl |
    rfl
  · exact ⟨_, _, _, _, rowKept_ticTick⟩
  · exact ⟨2, 1, 0x01, _, .of_zeroArg .ticTakeNmi rfl fun soe arg => by simp [decode, decodeDriverOp]⟩
  · exact ⟨2, 1, 0x02, _, .of_zeroArg .ticTakeInt rfl fun soe arg => by simp [decode, decodeDriverOp]⟩
  · exact ⟨2, 1, 0x03, _, .of_zeroArg .ticTakeReset rfl fun soe arg => by simp [decode, decodeDriverOp]⟩
  · exact ⟨2, 1, 0x04, _, .of_zeroArg .ticTakeData rfl fun soe arg => by simp [decode, decodeDriverOp]⟩
  · exact ⟨2, 1, 0x05, _, .of_zeroArg .ticSetNmi rfl fun soe arg => by simp [decode, decodeDriverOp]⟩
  · exact ⟨2, 0, 0x06, _, .of_zeroArg .dkcBanner rfl fun soe arg => by simp [decode, decodeDriverOp]⟩
  · exact ⟨3, 0, 0x10, _, .of_byteArg .dkcKeyEnq rfl (fun _ => rfl) fun soe arg => by simp [decode, decodeHostOp]⟩
  · exact ⟨3, 1, 0x11, _, .of_byteArg .ticSetSid rfl (fun _ => rfl) fun soe arg => by simp [decode, decodeHostOp]⟩
  · exact ⟨3, 1, 0x12, _, .of_zeroArg .ticSetInt rfl fun soe arg => by simp [decode, decodeHostOp]⟩
  · exact ⟨3, 1, 0x13, _, .of_byteArg .ticSetData rfl (fun _ => rfl) fun soe arg => by simp [decode, decodeHostOp]⟩
  · exact ⟨3, 1, 0x14, _, .of_zeroArg .ticReqReset rfl fun soe arg => by simp [decode, decodeHostOp]⟩
  · exact ⟨3, 0, 0x20, _, .of_zeroArg .dkcReset rfl fun soe arg => by simp [decode, decodeHostOp]⟩
  · exact ⟨3, 1, 0x20, _, .of_zeroArg .ticReset rfl fun soe arg => by simp [decode, decodeHostOp]⟩
  · exact ⟨3, 0, 0x21, _, .of_zeroArg .dkcPowerOn rfl fun soe arg => by simp [decode, decodeHostOp]⟩
  · exact ⟨3, 1, 0x21, _, .of_zeroArg .ticPowerOn rfl fun soe arg => by simp [decode, decodeHostOp]⟩
  · exact ⟨3, 2, 0x30, _, .of_zeroArg .drvCancel rfl fun soe arg => by simp [decode, decodeHostOp]⟩
  · exact ⟨3, 2, 0x31, _, .of_zeroArg .drvStart rfl fun soe arg => by simp [decode, decodeHostOp]⟩

/-- KIND, UNIT and OP stand together above ARG (R82). -/
theorem opSelector_opWord (kind unit : BitVec 4) (op : Byte) (arg : Half) :
    opSelector (opWord kind unit op arg) = kind ++ unit ++ op := by
  apply BitVec.eq_of_toNat_eq
  rw [opSelector, toNat_field, opWord_toNat, toNat_append]
  erw [toNat_append]
  have := kind.isLt; have := unit.isLt; have := op.isLt; have := arg.isLt
  omega

/-- A word with the selector of a row has the row's fields and an argument of its own. -/
theorem eq_opWord_of_opSelector {w : Word} {kind unit : BitVec 4} {op : Byte}
    (h : opSelector w = kind ++ unit ++ op) : w = opWord kind unit op (wordArg w) := by
  have htop := congrArg BitVec.toNat h
  erw [opSelector, toNat_field, toNat_append, toNat_append] at htop
  apply BitVec.eq_of_toNat_eq
  rw [opWord_toNat, wordArg, toNat_field]
  have := w.isLt
  omega

/-! What is refused -/

theorem decode_of_kind_ge {soe : Byte} {w : Word} (h : 4 ≤ (wordKind w).toNat) :
    decode soe w = .error .reservedKind := by
  unfold decode
  generalize wordKind w = kind at *
  rw [if_neg, if_neg, if_neg, if_neg] <;> (rintro rfl; revert h; decide)

theorem busUnitOf_of_ge {unit : BitVec 4} (h : 2 ≤ unit.toNat) : busUnitOf unit = .error .reservedUnit := by
  unfold busUnitOf
  rw [if_neg, if_neg] <;> (rintro rfl; revert h; decide)

/-- A bus word of a UNIT that is no controller. -/
theorem decode_bus_of_unit_ge {soe : Byte} {w : Word} (hkind : (wordKind w).toNat ≤ 1)
    (hunit : 2 ≤ (wordUnit w).toNat) : decode soe w = .error .reservedUnit := by
  have hbus := busUnitOf_of_ge hunit
  unfold decode
  split_ifs with h0 h1 h2 h3
  · rw [decodeBusRead, hbus]
  · rw [decodeBusWrite, hbus]
  · rw [h2] at hkind
    exact absurd hkind (by decide)
  · rw [h3] at hkind
    exact absurd hkind (by decide)
  · generalize wordKind w = kind at *
    bv_omega

/-- An operation's word of a UNIT that the block does not have. -/
theorem decodeOp_of_unit_ge {unit : BitVec 4} (op : Byte) (arg : Half) (h : 3 ≤ unit.toNat) :
    decodeDriverOp unit op arg = .error .reservedUnit ∧ decodeHostOp unit op arg = .error .reservedUnit := by
  have h0 : unit ≠ 0 := by rintro rfl; revert h; decide
  have h1 : unit ≠ 1 := by rintro rfl; revert h; decide
  have h2 : unit ≠ 2 := by rintro rfl; revert h; decide
  simp only [decodeDriverOp, decodeHostOp, if_neg h0, if_neg h1, if_neg h2, and_self]

theorem decode_of_unit_ge {soe : Byte} {w : Word} (hkind : (wordKind w).toNat ≤ 3) (hunit : 3 ≤ (wordUnit w).toNat) :
    decode soe w = .error .reservedUnit := by
  obtain ⟨hdriver, hhost⟩ := decodeOp_of_unit_ge (wordOp w) (wordArg w) hunit
  by_cases hbus : (wordKind w).toNat ≤ 1
  · exact decode_bus_of_unit_ge hbus (by omega)
  · unfold decode
    split_ifs with h0 h1 h2 h3
    · exact absurd (by rw [h0]; decide) hbus
    · exact absurd (by rw [h1]; decide) hbus
    · exact hdriver
    · exact hhost
    · generalize wordKind w = kind at *
      bv_omega

/-- The controller of a UNIT below 2. -/
theorem exists_unitCode_of_le {unit : BitVec 4} (h : unit.toNat ≤ 1) : ∃ u, unit = unitCode u := by
  rcases Nat.le_one_iff_eq_zero_or_eq_one.mp h with h0 | h1
  · exact ⟨.dkc, BitVec.eq_of_toNat_eq h0⟩
  · exact ⟨.tic, BitVec.eq_of_toNat_eq h1⟩

theorem decode_read_with_data {soe : Byte} {w : Word} (hkind : wordKind w = 0) (hunit : (wordUnit w).toNat ≤ 1)
    (hdata : wordData w ≠ 0) : decode soe w = .error .readDataNotZero := by
  obtain ⟨u, hu⟩ := exists_unitCode_of_le hunit
  rw [decode, if_pos hkind, decodeBusRead, hu, busUnitOf_unitCode]
  exact if_neg hdata

/-- A bus word of a controller has a transaction, unless it is a read with data. -/
theorem decode_bus_of_unit_le {soe : Byte} {w : Word} (hkind : (wordKind w).toNat ≤ 1)
    (hunit : (wordUnit w).toNat ≤ 1) (hdata : wordKind w = 0 → wordData w = 0) : ∃ i, decode soe w = .ok i := by
  obtain ⟨u, hu⟩ := exists_unitCode_of_le hunit
  rw [← busWord_fields w, hu]
  rcases Nat.le_one_iff_eq_zero_or_eq_one.mp hkind with h0 | h1
  · have hread : wordKind w = 0 := BitVec.eq_of_toNat_eq h0
    rw [hread, hdata hread]
    exact ⟨_, decode_busRead soe u _⟩
  · have hwrite : wordKind w = 1 := BitVec.eq_of_toNat_eq h1
    rw [hwrite]
    exact ⟨_, decode_busWrite soe u _ _⟩

/-- An OP that no row has under its KIND and UNIT is none of those that rows have. -/
theorem op_ne_of_no_row {kind unit : BitVec 4} {op : Byte} (ops : List Byte)
    (hops : ∀ x ∈ ops, ∃ r ∈ opRows, opSelector r.1 = kind ++ unit ++ x)
    (hrow : ∀ r ∈ opRows, kind ++ unit ++ op ≠ opSelector r.1) : ∀ x ∈ ops, op ≠ x := by
  rintro x hx rfl
  obtain ⟨r, hr, heq⟩ := hops op hx
  exact hrow r hr heq.symm

theorem unit_cases_of_le {unit : BitVec 4} (h : unit.toNat ≤ 2) : unit = 0 ∨ unit = 1 ∨ unit = 2 := by
  bv_omega

theorem decodeDriverOp_without_row {unit : BitVec 4} {op : Byte} (arg : Half) (hunit : unit.toNat ≤ 2)
    (hrow : ∀ r ∈ opRows, (2 : BitVec 4) ++ unit ++ op ≠ opSelector r.1) :
    decodeDriverOp unit op arg = .error .noSuchOp := by
  rcases unit_cases_of_le hunit with rfl | rfl | rfl
  · have hop := op_ne_of_no_row [0x06] (by decide) hrow
    simp_all [decodeDriverOp]
  · have hop := op_ne_of_no_row [0x00, 0x01, 0x02, 0x03, 0x04, 0x05] (by decide) hrow
    simp_all [decodeDriverOp]
  · rfl

theorem decodeHostOp_without_row {unit : BitVec 4} {op : Byte} (arg : Half) (hunit : unit.toNat ≤ 2)
    (hrow : ∀ r ∈ opRows, (3 : BitVec 4) ++ unit ++ op ≠ opSelector r.1) :
    decodeHostOp unit op arg = .error .noSuchOp := by
  rcases unit_cases_of_le hunit with rfl | rfl | rfl
  · have hop := op_ne_of_no_row [0x10, 0x20, 0x21] (by decide) hrow
    simp_all [decodeHostOp]
  · have hop := op_ne_of_no_row [0x11, 0x12, 0x13, 0x14, 0x20, 0x21] (by decide) hrow
    simp_all [decodeHostOp]
  · have hop := op_ne_of_no_row [0x30, 0x31] (by decide) hrow
    simp_all [decodeHostOp]

/-- A KIND, UNIT and OP that no row has. -/
theorem decode_without_row {soe : Byte} {w : Word} (hkind : wordKind w = 2 ∨ wordKind w = 3)
    (hunit : (wordUnit w).toNat ≤ 2) (hrow : ∀ r ∈ opRows, opSelector w ≠ opSelector r.1) :
    decode soe w = .error .noSuchOp := by
  rw [← opWord_fields w, opSelector_opWord] at hrow
  unfold decode
  rcases hkind with hk | hk <;> rw [hk] at hrow ⊢
  · exact decodeDriverOp_without_row (wordArg w) hunit hrow
  · exact decodeHostOp_without_row (wordArg w) hunit hrow

/-- A word with the selector of a row either matches the row, or has a must-be-zero bit set. -/
theorem RowKept.word {r : Word × Word} {kind unit : BitVec 4} {op : Byte} {m : Half}
    (hr : RowKept r kind unit op m) {w : Word} (hsel : opSelector w = opSelector r.1) :
    w = opWord kind unit op (wordArg w) ∧ (w &&& r.2 = r.1 ↔ wordArg w &&& m = 0) := by
  rw [hr.row_eq] at hsel ⊢
  rw [opSelector_opWord] at hsel
  have hw := eq_opWord_of_opSelector hsel
  refine ⟨hw, ?_⟩
  constructor
  · intro hmatch
    have harg := congrArg wordArg hmatch
    rwa [hw, opWord_and, wordArg_opWord, wordArg_opWord] at harg
  · intro harg
    rw [hw, opWord_and, harg]

/-- A word that matches a row has the row's selector. -/
theorem RowKept.selector_of_match {r : Word × Word} {kind unit : BitVec 4} {op : Byte} {m : Half}
    (hr : RowKept r kind unit op m) {w : Word} (h : w &&& r.2 = r.1) : opSelector w = opSelector r.1 := by
  rw [hr.row_eq] at h ⊢
  rw [← opWord_fields w, opWord_and] at h
  have hk := congrArg wordKind h
  have hu := congrArg wordUnit h
  have ho := congrArg wordOp h
  simp only [wordKind_opWord, wordUnit_opWord, wordOp_opWord] at hk hu ho
  rw [← opWord_fields w, opSelector_opWord, opSelector_opWord, hk, hu, ho]

theorem presentWord_of_error {w : Word} {s : State} {e : DecodeError} (h : decode s.cfg.soeMask w = .error e) :
    presentWord w s = .refused (.reservedWord e) := by
  rw [presentWord, h]

theorem presentWord_of_ok {w : Word} {s : State} {i : Instr} (h : decode s.cfg.soeMask w = .ok i) :
    presentWord w s = exec i s := by
  rw [presentWord, h]

/-- The operations that need a stopped driver are all of KIND 3. -/
theorem needsStoppedDriver_of_kind_le {i : Instr} (h : (wordKind (encode i)).toNat ≤ 1) :
    i.needsStoppedDriver = false := by
  cases hi : i.needsStoppedDriver with
  | false => rfl
  | true =>
    simp only [Instr.needsStoppedDriver, Bool.or_eq_true, beq_iff_eq] at hi
    rcases hi with (((rfl | rfl) | rfl) | rfl) | rfl <;> exact absurd h (by decide)

/-- Settles O50: a clause each for the fields that no transaction has, then the rows of the operations, then the bus. -/
theorem reservedWordsAreRefused : Obligations.ReservedWordsAreRefused := by
  intro w s
  refine ⟨fun hkind => ?_, fun hkind hunit => ?_, fun hkind hunit => ?_, fun hkind hunit hdata => ?_,
    fun hkind hunit hrow => ?_, fun r hmem hsel hne => ?_, fun r hmem hmatch => ?_, fun hkind hunit hdata => ?_⟩
  · exact presentWord_of_error (decode_of_kind_ge hkind)
  · exact presentWord_of_error (decode_bus_of_unit_ge hkind hunit)
  · exact presentWord_of_error (decode_of_unit_ge hkind hunit)
  · exact presentWord_of_error (decode_read_with_data hkind hunit hdata)
  · exact presentWord_of_error (decode_without_row hkind hunit hrow)
  · obtain ⟨kind, unit, op, m, hr⟩ := rowKept_of_mem hmem
    obtain ⟨hw, hiff⟩ := hr.word hsel
    apply presentWord_of_error
    rw [hw]
    exact hr.refused _ _ (mt hiff.mpr hne)
  · obtain ⟨kind, unit, op, m, hr⟩ := rowKept_of_mem hmem
    obtain ⟨hw, hiff⟩ := hr.word (hr.selector_of_match hmatch)
    obtain ⟨i, hi, hdec⟩ := hr.accepted s.cfg.soeMask (wordArg w) (hiff.mp hmatch)
    exact ⟨i, hi, presentWord_of_ok (hw ▸ hdec)⟩
  · obtain ⟨i, hi⟩ := decode_bus_of_unit_le (soe := s.cfg.soeMask) hkind hunit hdata
    obtain ⟨-, hword⟩ := encodeOfDecodeIsTheWord _ w i hi
    rw [presentWord_of_ok hi]
    exact everyOtherTransactionCompletes i s (needsStoppedDriver_of_kind_le (hword ▸ hkind))

end Sys2Proof.Laws
end

section
/-! One transaction of the table (O13, O17, O18, O19, O21, O25, O32, O34, O36): the next state of each transaction that
the sections above do not give, and what the shared operations can change. -/

namespace Sys2Proof.Machine

/-! The transactions whose meaning is a shared operation -/

theorem exec_dkcWrDisp (a : Half) (v : Byte) (s : State) : exec (.dkcWrDisp a v) s = .next (displayWrite v s) := rfl
theorem exec_ticTick (n : Half) (s : State) : exec (.ticTick n) s = .next (tickTimer n.toNat s) := rfl
theorem exec_ticRdSer (a : Half) (s : State) : exec (.ticRdSer a) s = .next (serialRead s) := rfl
theorem exec_ticWrSerOn (a : Half) (v : Byte) (s : State) : exec (.ticWrSerOn a v) s = .next (serialWrite v s) := rfl
theorem exec_ticWrNone (a : Half) (v : Byte) (s : State) :
    exec (.ticWrNone a v) s = .next (unassignedPortWrite a v s) := rfl

/-! The transactions that set fields -/

/-- The nop command of the timer (R121). -/
theorem exec_ticWrCmdNop (a : Half) (v : Byte) (s : State) : exec (.ticWrCmdNop a v) s = .next s := rfl

/-- The abort command of the timer keeps its count (R122). -/
theorem exec_ticWrCmdAbort (a : Half) (v : Byte) (s : State) :
    exec (.ticWrCmdAbort a v) s = .next { s with tic := { s.tic with tstate := .abort } } := rfl

/-- The pending command of the timer keeps its count (R123). -/
theorem exec_ticWrCmdPend (a : Half) (v : Byte) (s : State) :
    exec (.ticWrCmdPend a v) s = .next { s with tic := { s.tic with tstate := .pending } } := rfl

/-- A read of a TIC port that is not the serial one (R129). -/
theorem exec_ticRdNone (a : Half) (s : State) : exec (.ticRdNone a) s = .next { s with ret := .byte 0x00 } := rfl

/-- The driver's set of NMI (R144). -/
theorem exec_ticSetNmi (s : State) : exec .ticSetNmi s = .next { s with tic := { s.tic with nmi := true } } := rfl

/-- The host's set of INT (R145). -/
theorem exec_ticSetInt (s : State) : exec .ticSetInt s = .next { s with tic := { s.tic with intr := true } } := rfl

/-- The host's set of the vector data (R146). -/
theorem exec_ticSetData (b : Byte) (s : State) :
    exec (.ticSetData b) s = .next { s with tic := { s.tic with vdata := b } } := rfl

/-- The host's reset request (R147). -/
theorem exec_ticReqReset (s : State) :
    exec .ticReqReset s = .next { s with tic := { s.tic with rstreq := true } } := rfl

/-- The host's serial input byte (R164). -/
theorem exec_ticSetSid (b : Byte) (s : State) :
    exec (.ticSetSid b) s = .next { s with tic := { s.tic with inputByte := b } } := rfl

/-! What the shared operations can change -/

/-- The events of the banner, in order (R186). -/
def bannerEvents (c : Config) : List Event :=
  [.latchWrite .addr 1 c.bannerAddr[0], .latchWrite .addr 2 c.bannerAddr[1], .latchWrite .addr 3 c.bannerAddr[2],
    .latchWrite .addr 4 c.bannerAddr[3], .latchWrite .data 1 c.bannerData[0], .latchWrite .data 2 c.bannerData[1]]

/-- A write of every slot leaves nothing of the old ones. -/
theorem vector_set_all4 {α : Type} (v w : Vector α 4) :
    (((v.set 0 w[0]).set 1 w[1]).set 2 w[2]).set 3 w[3] = w := by
  refine Vector.ext fun i hi => ?_
  interval_cases i <;> simp

theorem vector_set_all2 {α : Type} (v w : Vector α 2) : (v.set 0 w[0]).set 1 w[1] = w := by
  refine Vector.ext fun i hi => ?_
  interval_cases i <;> simp

/-- The banner replaces every slot by the configured one (R186). -/
theorem writeBanner_eq (s : State) :
    writeBanner s = { s with
      dkc := { s.dkc with addr := s.cfg.bannerAddr, data := s.cfg.bannerData },
      events := s.events ++ bannerEvents s.cfg } := by
  simp [writeBanner, writeAddrLatch, writeDataLatch, State.withDkc, State.emit, bannerEvents, vector_set_all4,
    vector_set_all2]

/-- TICK changes the count and the timer's state alone (R127). -/
theorem tick_frame (n : Nat) (t : Tic) : ∃ c x, (t.tick n).2 = { t with count := c, tstate := x } := by
  rcases t.tick_cases n with h | ⟨-, c, -, h⟩ | ⟨-, h⟩ | ⟨-, h⟩ <;> rw [h]
  · exact ⟨t.count, t.tstate, rfl⟩
  · exact ⟨c, t.tstate, rfl⟩
  · exact ⟨t.period, t.tstate, rfl⟩
  · exact ⟨0, .stopped, rfl⟩

/-- A serial read changes the input frame alone (R161). -/
theorem serialRead_frame (s : State) :
    ∃ (b : Byte) (k : Fin 8) (c : Bool) (r : Returned), serialRead s = { s with
      tic := { s.tic with inputByte := b, inputBitsConsumed := k, ttyConnected := c }, ret := r } := by
  rcases serialRead_cases s with ⟨-, h⟩ | ⟨-, -, h⟩ | ⟨-, -, h⟩ <;> rw [h]
  · exact ⟨s.tic.inputByte, s.tic.inputBitsConsumed, !s.tic.ttyConnected, _, rfl⟩
  · exact ⟨s.tic.inputByte, s.tic.inputBitsConsumed, s.tic.ttyConnected, _, rfl⟩
  · rcases s.tic.shiftIn_cases with ⟨-, hs⟩ | ⟨-, hs⟩ <;> rw [hs]
    · exact ⟨_, _, s.tic.ttyConnected, _, rfl⟩
    · exact ⟨s.tic.inputByte, _, s.tic.ttyConnected, _, rfl⟩

/-- A write of an unassigned port changes the vector data alone (R130). -/
theorem unassignedPortWrite_frame (a : Half) (v : Byte) (s : State) :
    ∃ b : Byte, unassignedPortWrite a v s = { s with tic := { s.tic with vdata := b } } := by
  rcases unassignedPortWrite_cases a v s with ⟨-, h⟩ | ⟨-, h⟩ <;> rw [h]
  · exact ⟨s.tic.vdata, rfl⟩
  · exact ⟨v, rfl⟩

/-! The settlements -/

/-- Settles O13: none of the three commands reads the count. -/
theorem otherTimerCommandsKeepTheCount : Obligations.OtherTimerCommandsKeepTheCount :=
  fun a v s => ⟨exec_ticWrCmdNop a v s, exec_ticWrCmdAbort a v s, exec_ticWrCmdPend a v s⟩

/-- Settles O17: the address is not read. -/
theorem otherTicReadsReturnZero : Obligations.OtherTicReadsReturnZero :=
  exec_ticRdNone

/-- Settles O18: no port is the data-latch port. -/
theorem unassignedTicWriteIsIgnored : Obligations.UnassignedTicWriteIsIgnored := by
  intro a v s hnone
  rcases unassignedPortWrite_cases a v s with ⟨-, h⟩ | ⟨hport, -⟩
  · rw [exec_ticWrNone, h]
  · rw [hnone] at hport
    cases hport

/-- Settles O19: the port of an address is its low byte as a number. -/
theorem dataLatchPortWriteSetsTheVectorData : Obligations.DataLatchPortWriteSetsTheVectorData := by
  intro a v p s hcfg
  have hport : s.cfg.dataLatchPort = some (ticPort a) ↔ a.toNat % 256 = p.toNat := by
    rw [hcfg, Option.some_inj, ← BitVec.toNat_inj, ticPort, Laws.toNat_field]
    omega
  rw [exec_ticWrNone]
  rcases unassignedPortWrite_cases a v s with ⟨hne, h⟩ | ⟨heq, h⟩ <;> rw [h]
  · exact ⟨fun e => absurd (hport.mpr e) hne, fun _ => rfl⟩
  · exact ⟨fun _ => rfl, fun e => absurd (hport.mp heq) e⟩

/-- Settles O21: each set is one field of the TIC. -/
theorem setsWriteTheirLatch : Obligations.SetsWriteTheirLatch :=
  fun b s => ⟨exec_ticSetNmi s, exec_ticSetInt s, exec_ticSetData b s, exec_ticReqReset s⟩

/-- Settles O25: the frame's counter and the connect flag are among what stays. -/
theorem hostSetsTheInputByteAlone : Obligations.HostSetsTheInputByteAlone :=
  exec_ticSetSid

/-- Settles O32: the six writes leave the configured bytes, whatever the slots held. -/
theorem bannerWritesTheSixLatches : Obligations.BannerWritesTheSixLatches :=
  fun s => congrArg Host.Outcome.next (writeBanner_eq s)

/-- A start that is admitted, with a valid configuration, begins a fresh task (R189). -/
theorem execDrvStart_of_stopped {s : State} (hstop : s.drv.dstate ≠ .running) (hfit : s.cfg.imagesFit = true) :
    execDrvStart s = .next { s with drv := s.drv.start s.clock } := by
  rw [execDrvStart, if_pos ((Driver.stopped_iff s.drv).mpr hstop), if_pos hfit]
  rfl

/-- Settles O34: the fresh task is `Driver.start`, field by field. -/
theorem startBeginsAFreshTask : Obligations.StartBeginsAFreshTask :=
  fun _ hstop hfit => execDrvStart_of_stopped hstop hfit

/-- Settles O36: the four resets share one admission, and the TIC's two leave the same state. -/
theorem resetsWhileTheDriverIsNotRunning : Obligations.ResetsWhileTheDriverIsNotRunning := by
  intro s hstop
  refine ⟨whenStopped_of_stopped _ hstop, whenStopped_of_stopped _ hstop, ?_⟩
  rintro i (rfl | rfl)
  · exact whenStopped_of_stopped _ hstop
  · exact whenStopped_of_stopped _ hstop

end Sys2Proof.Machine
end

section
/-! What a transaction leaves as it is (O57, O58): its unit's frame, and the events of the latch slots it changes. -/

namespace Sys2Proof.Machine

/-! The frame of a unit -/

/-- Where `t` differs from `s` after a transaction of a unit (R12): the unit's own state, the events of a controller,
and the place of the returned value. -/
inductive UnitFrame (s t : State) (unit : BitVec 4) : Prop where
  | dkc (d : Dkc) (es : List Event) (r : Returned) (hunit : unit = 0)
      (ht : t = { s with dkc := d, events := es, ret := r })
  | tic (d : Tic) (es : List Event) (r : Returned) (hunit : unit = 1)
      (ht : t = { s with tic := d, events := es, ret := r })
  | drv (d : Driver) (hunit : unit = 2) (ht : t = { s with drv := d })

/-- A transaction keeps to its unit. -/
theorem exec_unitFrame {i : Instr} {s t : State} (h : exec i s = .next t) :
    UnitFrame s t (wordUnit (encode i)) := by
  cases i <;> simp only [encode, Laws.wordUnit_busWord, Laws.wordUnit_opWord]
  case dkcRdKey a =>
    rw [exec_dkcRdKey] at h
    cases h
    exact .dkc _ _ _ rfl rfl
  case dkcRdStatus | dkcRdNone | dkcWrCtrl | dkcWrNone | dkcKeyEnq =>
    cases h
    exact .dkc _ _ _ rfl rfl
  case dkcBanner =>
    obtain rfl := Host.Outcome.next.inj h
    rw [writeBanner_eq]
    exact .dkc _ _ _ rfl rfl
  case dkcWrDisp a v =>
    obtain rfl := Host.Outcome.next.inj h
    rcases displayWrite_cases v s with e | e | ⟨_, -, e⟩ | ⟨_, -, e⟩ <;> rw [e] <;> exact .dkc _ _ _ rfl rfl
  case dkcReset | dkcPowerOn =>
    obtain ⟨-, rfl⟩ := whenStopped_next h
    exact .dkc _ _ _ rfl rfl
  case ticReset | ticPowerOn =>
    obtain ⟨-, rfl⟩ := whenStopped_next h
    exact .tic _ _ _ rfl rfl
  case ticRdSer a =>
    obtain rfl := Host.Outcome.next.inj h
    obtain ⟨_, _, _, _, e⟩ := serialRead_frame s
    rw [e]
    exact .tic _ _ _ rfl rfl
  case ticWrSerOn a v =>
    obtain rfl := Host.Outcome.next.inj h
    rcases serialWrite_cases v s with ⟨-, e⟩ | ⟨-, e⟩ <;> rw [e] <;> exact .tic _ _ _ rfl rfl
  case ticWrNone a v =>
    obtain rfl := Host.Outcome.next.inj h
    obtain ⟨_, e⟩ := unassignedPortWrite_frame a v s
    rw [e]
    exact .tic _ _ _ rfl rfl
  case drvCancel =>
    cases h
    exact .drv _ rfl rfl
  case drvStart =>
    obtain ⟨-, -, rfl⟩ := execDrvStart_next h
    exact .drv _ rfl rfl
  all_goals
    cases h
    exact .tic _ _ _ rfl rfl

/-- Settles O58: each of the three frames keeps the other two units. -/
theorem transactionsTouchOnlyTheirUnit : Obligations.TransactionsTouchOnlyTheirUnit := by
  intro i s t h
  cases exec_unitFrame h with
  | dkc d es r hunit ht => subst ht; exact ⟨fun hne => absurd hunit hne, fun _ => rfl, fun _ => rfl⟩
  | tic d es r hunit ht => subst ht; exact ⟨fun _ => rfl, fun hne => absurd hunit hne, fun _ => rfl⟩
  | drv d hunit ht => subst ht; exact ⟨fun _ => rfl, fun _ => rfl, fun hne => absurd hunit hne⟩

/-- What no transaction writes: the parameters, the inputs still to come, and the wall clock. -/
structure SameSetting (s t : State) : Prop where
  cfg : t.cfg = s.cfg
  inbox : t.inbox = s.inbox
  draws : t.draws = s.draws
  clock : t.clock = s.clock

theorem exec_sameSetting {i : Instr} {s t : State} (h : exec i s = .next t) : SameSetting s t := by
  cases exec_unitFrame h with
  | dkc d es r _ ht => subst ht; exact ⟨rfl, rfl, rfl, rfl⟩
  | tic d es r _ ht => subst ht; exact ⟨rfl, rfl, rfl, rfl⟩
  | drv d _ ht => subst ht; exact ⟨rfl, rfl, rfl, rfl⟩

/-! Published latch slots -/

/-- Every latch slot that differs in `t` is published by an event that `t` has and `s` has not (R108). -/
def Published (s t : State) : Prop :=
  ∃ es : List Event, t.events = s.events ++ es ∧
    (∀ k : Fin 4, t.dkc.addr[k] ≠ s.dkc.addr[k] → .latchWrite .addr (k + 1) t.dkc.addr[k] ∈ es) ∧
    ∀ k : Fin 2, t.dkc.data[k] ≠ s.dkc.data[k] → .latchWrite .data (k + 1) t.dkc.data[k] ∈ es

theorem Published.of_latches_kept {s t : State} {es : List Event} (hes : t.events = s.events ++ es)
    (haddr : t.dkc.addr = s.dkc.addr) (hdata : t.dkc.data = s.dkc.data) : Published s t :=
  ⟨es, hes, fun _ hne => absurd (by rw [haddr]) hne, fun _ hne => absurd (by rw [hdata]) hne⟩

theorem Published.of_silent {s t : State} (hes : t.events = s.events) (haddr : t.dkc.addr = s.dkc.addr)
    (hdata : t.dkc.data = s.dkc.data) : Published s t :=
  .of_latches_kept (es := []) (by rw [hes, List.append_nil]) haddr hdata

/-- A slot that a write of another value changed is the slot written. -/
theorem vector_set_ne {n : Nat} {α : Type} {v : Vector α n} {i k : Fin n} {x : α} (h : (v.set i x)[k] ≠ v[k]) :
    k = i ∧ (v.set i x)[k] = x := by
  by_cases hk : i = k
  · subst hk
    exact ⟨rfl, by simp⟩
  · exact absurd (Vector.getElem_set_ne i.isLt k.isLt fun e => hk (Fin.ext e)) h

theorem published_displayWrite (v : Byte) (s : State) : Published s (displayWrite v s) := by
  rcases displayWrite_cases v s with h | h | ⟨i, -, h⟩ | ⟨i, -, h⟩ <;> rw [h]
  · exact .of_silent rfl rfl rfl
  · exact .of_silent rfl rfl rfl
  · refine ⟨_, rfl, fun k hk => ?_, fun _ hk => absurd rfl hk⟩
    obtain ⟨rfl, hval⟩ := vector_set_ne hk
    simp only [hval, List.mem_singleton]
  · refine ⟨_, rfl, fun _ hk => absurd rfl hk, fun k hk => ?_⟩
    obtain ⟨rfl, hval⟩ := vector_set_ne hk
    simp only [hval, List.mem_singleton]

theorem published_writeBanner (s : State) : Published s (writeBanner s) := by
  rw [writeBanner_eq]
  refine ⟨bannerEvents s.cfg, rfl, fun k _ => ?_, fun k _ => ?_⟩
  · fin_cases k <;> simp [bannerEvents]
  · fin_cases k <;> simp [bannerEvents]

/-- Settles O57: the two transactions that write latches publish them, and all others but the construction keep them. -/
theorem latchChangesArePublished : Obligations.LatchChangesArePublished := by
  intro i s t h
  cases i
  case dkcPowerOn =>
    obtain ⟨-, rfl⟩ := whenStopped_next h
    exact .inl ⟨rfl, rfl⟩
  all_goals right
  case dkcWrDisp a v =>
    obtain rfl := Host.Outcome.next.inj h
    exact published_displayWrite v s
  case dkcBanner =>
    obtain rfl := Host.Outcome.next.inj h
    exact published_writeBanner s
  case ticWrSerOn a v =>
    obtain rfl := Host.Outcome.next.inj h
    rcases serialWrite_cases v s with ⟨-, e⟩ | ⟨-, e⟩ <;> rw [e]
    · exact Published.of_silent rfl rfl rfl
    · exact Published.of_latches_kept rfl rfl rfl
  case dkcRdKey a =>
    rw [exec_dkcRdKey] at h
    cases h
    exact Published.of_silent rfl rfl rfl
  case ticRdSer a =>
    obtain rfl := Host.Outcome.next.inj h
    obtain ⟨_, _, _, _, e⟩ := serialRead_frame s
    rw [e]
    exact Published.of_silent rfl rfl rfl
  case ticWrNone a v =>
    obtain rfl := Host.Outcome.next.inj h
    obtain ⟨_, e⟩ := unassignedPortWrite_frame a v s
    rw [e]
    exact Published.of_silent rfl rfl rfl
  case dkcReset | ticReset | ticPowerOn =>
    obtain ⟨-, rfl⟩ := whenStopped_next h
    exact Published.of_silent rfl rfl rfl
  case drvStart =>
    obtain ⟨-, -, rfl⟩ := execDrvStart_next h
    exact Published.of_silent rfl rfl rfl
  all_goals
    cases h
    exact Published.of_silent rfl rfl rfl

/-- No transaction takes an event out of the history (R14). -/
theorem exec_events {i : Instr} {s t : State} (h : exec i s = .next t) : s.events <+: t.events := by
  rcases latchChangesArePublished i s t h with ⟨-, hes⟩ | ⟨es, hes, -, -⟩ <;> rw [hes]
  exact List.prefix_append _ _

end Sys2Proof.Machine
end

section
/-! The driver task (O39 to O41, O43, O44): the equation of each of its positions, and runs of them. -/

namespace Sys2Proof.Machine

/-! One step, by position -/

section
variable {s : State} (a : CpuAnswer)

theorem driverMove_terminated (h : s.drv.pos = .terminated) : driverMove a s = .next s := by
  rw [driverMove, h]

/-- Each step of the CPU begins with the take of NMI (R182). -/
theorem driverMove_cpuEntry (h : s.drv.pos = .cpuEntry) (hrun : s.drv.dstate = .running) :
    driverMove a s = .next { s with
      tic := { s.tic with nmi := false }, drv := { s.drv with pos := .cpuBody }, ret := .flag s.tic.nmi } := by
  rw [driverMove, h]
  exact if_pos hrun

theorem driverMove_cpuEntry_of_not_running (h : s.drv.pos = .cpuEntry) (hrun : s.drv.dstate ≠ .running) :
    driverMove a s = .next { s with drv := { s.drv with pos := .terminated } } := by
  rw [driverMove, h]
  exact if_neg hrun

theorem driverMove_cpuBody (h : s.drv.pos = .cpuBody) : driverMove a s = cpuMove a.move s := by
  rw [driverMove, h]

/-- Step 2 of R181. -/
theorem driverMove_account {n : Nat} (h : s.drv.pos = .account n) :
    driverMove a s = .next { s with drv := { s.drv with
      cumCycles := s.drv.cumCycles + n, sinceMeasure := s.drv.sinceMeasure + n, pos := .tick n } } := by
  rw [driverMove, h]
  rfl

/-- Step 3 of R181. -/
theorem driverMove_tick {n : Nat} (h : s.drv.pos = .tick n) :
    driverMove a s = .next { s with
      tic := (s.tic.tick n).2, drv := { s.drv with pos := .raiseNmi (s.tic.tick n).1 },
      ret := .flag (s.tic.tick n).1 } := by
  rw [driverMove, h]
  rfl

/-- Step 4 of R181: an elapsed tick sets NMI, and none clears it. -/
theorem driverMove_raiseNmi {elapsed : Bool} (h : s.drv.pos = .raiseNmi elapsed) :
    driverMove a s = .next { s with
      tic := { s.tic with nmi := s.tic.nmi || elapsed }, drv := { s.drv with pos := .takeReset } } := by
  rw [driverMove, h]
  cases elapsed <;> simp [raiseNmi, State.goto, State.withTic, Tic.withNmi]

/-- Step 5 of R181: a reset request that is taken calls the CPU's reset (R184). -/
theorem driverMove_takeReset (h : s.drv.pos = .takeReset) :
    driverMove a s = .next { s with
      tic := { s.tic with rstreq := false },
      drv := { s.drv with pos := .checkHalt, cpuResets := s.drv.cpuResets + (if s.tic.rstreq then 1 else 0) },
      ret := .flag s.tic.rstreq } := by
  rw [driverMove, h]
  cases hr : s.tic.rstreq <;> simp [serveReset, takeReset, State.withTic, State.withDrv, State.returning,
    Tic.withRstreq, hr]

/-- Step 6 of R181, for a CPU that has halted (R185). -/
theorem driverMove_checkHalt_halted (h : s.drv.pos = .checkHalt) (ha : a.halted = true) :
    driverMove a s = .next { s with drv := { s.drv with dstate := .halted, pos := .haltWait s.clock } } := by
  rw [driverMove, h]
  exact congrArg Host.Outcome.next (if_pos ha)

/-- Step 6 of R181, for a CPU that has not halted. -/
theorem driverMove_checkHalt_going (h : s.drv.pos = .checkHalt) (ha : a.halted = false) :
    driverMove a s = .next { s with drv := { s.drv with pos := .checkCancel } } := by
  rw [driverMove, h]
  exact congrArg Host.Outcome.next (if_neg (Bool.eq_false_iff.mp ha))

theorem driverMove_haltWait {since : Rat} (h : s.drv.pos = .haltWait since) :
    driverMove a s = .next (awaitBanner since s) := by
  rw [driverMove, h]

/-- The banner of the halt exit (R186). -/
theorem driverMove_haltBanner (h : s.drv.pos = .haltBanner) :
    driverMove a s = .next { s with
      dkc := { s.dkc with addr := s.cfg.bannerAddr, data := s.cfg.bannerData },
      drv := { s.drv with pos := .haltNotify }, events := s.events ++ bannerEvents s.cfg } := by
  rw [driverMove, h]
  simp only [writeBanner_eq]
  rfl

/-- The halted notification, after which the task ends, or goes on for a START (R185; log entry 10). -/
theorem driverMove_haltNotify (h : s.drv.pos = .haltNotify) :
    driverMove a s = .next { s with
      drv := { s.drv with pos := s.drv.afterHaltExit }, events := s.events ++ [.halted] } := by
  rw [driverMove, h]
  rfl

/-- Step 7 of R181, with a cancellation waiting (R187). -/
theorem driverMove_checkCancel_cancelled (h : s.drv.pos = .checkCancel) (hc : s.drv.cancelReq = true) :
    driverMove a s = .next { s with drv := { s.drv with dstate := .cancelled, pos := .terminated } } := by
  rw [driverMove, h]
  exact congrArg Host.Outcome.next (if_pos hc)

/-- Step 7 of R181, with none waiting. -/
theorem driverMove_checkCancel_going (h : s.drv.pos = .checkCancel) (hc : s.drv.cancelReq = false) :
    driverMove a s = .next { s with drv := { s.drv with pos := .measure } } := by
  rw [driverMove, h]
  exact congrArg Host.Outcome.next (if_neg (Bool.eq_false_iff.mp hc))

/-- Step 8 of R181 (R190). -/
theorem driverMove_measure (h : s.drv.pos = .measure) :
    driverMove a s = .next ((measureRate (s.clock - s.drv.startTime) s).goto .cpuEntry) := by
  rw [driverMove, h]

end

/-! Runs of the task -/

theorem driverRun_cons {a : CpuAnswer} {s t : State} (h : driverMove a s = .next t) (as : List CpuAnswer) :
    driverRun (a :: as) s = driverRun as t := by
  simp only [driverRun, h, nextState]

@[simp] theorem tick_nmi (n : Nat) (t : Tic) : (t.tick n).2.nmi = t.nmi := by
  obtain ⟨c, x, h⟩ := tick_frame n t
  rw [h]

@[simp] theorem tick_rstreq (n : Nat) (t : Tic) : (t.tick n).2.rstreq = t.rstreq := by
  obtain ⟨c, x, h⟩ := tick_frame n t
  rw [h]

/-- The measurement changes the cycles since the last one, the rate and the events alone (R190). -/
theorem measureRate_frame (t : Rat) (s : State) :
    ∃ (hz : Option Rat) (es : List Event), measureRate t s = { s with
      drv := { s.drv with
        sinceMeasure := if clockMeasureCycles ≤ s.drv.sinceMeasure then 0 else s.drv.sinceMeasure, clockRateHz := hz }
      events := s.events ++ es } := by
  rcases measureRate_cases t s with ⟨hlt, h⟩ | ⟨hle, -, h⟩ | ⟨hle, -, h⟩ <;> rw [h]
  · exact ⟨s.drv.clockRateHz, [], by rw [if_neg (Nat.not_le.mpr hlt), List.append_nil]⟩
  · exact ⟨s.drv.clockRateHz, [], by rw [if_pos hle, List.append_nil]⟩
  · exact ⟨_, _, by rw [if_pos hle]⟩

/-- Steps 2 to 6 of R181, with a CPU that does not halt. -/
theorem driverRun_account_to_checkCancel {n : Nat} (a₁ a₂ a₃ a₄ : CpuAnswer) {a₅ : CpuAnswer} (as : List CpuAnswer)
    {s : State} (hpos : s.drv.pos = .account n) (ha : a₅.halted = false) :
    driverRun (a₁ :: a₂ :: a₃ :: a₄ :: a₅ :: as) s = driverRun as { s with
      tic := { (s.tic.tick n).2 with nmi := s.tic.nmi || (s.tic.tick n).1, rstreq := false },
      drv := { s.drv with
        cumCycles := s.drv.cumCycles + n, sinceMeasure := s.drv.sinceMeasure + n, pos := .checkCancel,
        cpuResets := s.drv.cpuResets + (if s.tic.rstreq then 1 else 0) },
      ret := .flag s.tic.rstreq } := by
  rw [driverRun_cons (driverMove_account a₁ hpos), driverRun_cons (driverMove_tick a₂ rfl),
    driverRun_cons (driverMove_raiseNmi a₃ rfl), driverRun_cons (driverMove_takeReset a₄ rfl),
    driverRun_cons (driverMove_checkHalt_going a₅ rfl ha)]
  simp only [tick_nmi, tick_rstreq]

/-- Settles O39: steps 2 to 6, then step 7 with the token clear, and step 8, or with the token set. -/
theorem iterationAfterTheCpuStep : Obligations.IterationAfterTheCpuStep := by
  intro n a₁ a₂ a₃ a₄ a₅ a₆ a₇ s hpos ha
  constructor
  · intro hcancel
    rw [driverRun_account_to_checkCancel a₁ a₂ a₃ a₄ _ hpos ha,
      driverRun_cons (driverMove_checkCancel_going a₆ rfl ?token), driverRun_cons (driverMove_measure a₇ rfl)]
    case token => exact hcancel
    refine ⟨_, rfl, ?_⟩
    obtain ⟨hz, es, h⟩ := measureRate_frame _ _
    rw [h]
    exact ⟨rfl, rfl, rfl, rfl, rfl, hcancel, rfl, rfl, rfl⟩
  · intro hcancel
    rw [driverRun_account_to_checkCancel a₁ a₂ a₃ a₄ _ hpos ha,
      driverRun_cons (driverMove_checkCancel_cancelled a₆ rfl ?token)]
    · rfl
    case token => exact hcancel

/-- Settles O40: the latch that step 4 sets is the one that the poll of the next step 1 takes. -/
theorem elapsedTickReachesTheNextPoll : Obligations.ElapsedTickReachesTheNextPoll := by
  intro n a₁ a₂ a₃ a₄ a₅ a₆ a₇ s hpos helapsed
  have hraise (as : List CpuAnswer) : driverRun (a₁ :: a₂ :: as) s = driverRun as { s with
      tic := { (s.tic.tick n).2 with nmi := true }, drv := { s.drv with pos := .takeReset }, ret := .flag true } := by
    rw [driverRun_cons (driverMove_tick a₁ hpos), driverRun_cons (driverMove_raiseNmi a₂ rfl)]
    simp only [helapsed, Bool.or_true]
  refine ⟨⟨_, hraise [], rfl, rfl⟩, fun hrun hcancel ha => ?_⟩
  rw [hraise, driverRun_cons (driverMove_takeReset a₃ rfl), driverRun_cons (driverMove_checkHalt_going a₄ rfl ha),
    driverRun_cons (driverMove_checkCancel_going a₅ rfl ?token), driverRun_cons (driverMove_measure a₆ rfl)]
  case token => exact hcancel
  obtain ⟨hz, es, h⟩ := measureRate_frame _ _
  rw [h, driverRun_cons (driverMove_cpuEntry a₇ rfl ?running)]
  case running => exact hrun
  exact ⟨_, rfl, rfl, rfl, rfl⟩

/-- Settles O41: step 6 for a halted CPU, then the three positions of the halt exit. -/
theorem haltExitShowsTheBanner : Obligations.HaltExitShowsTheBanner := by
  refine ⟨fun a s hpos ha => driverMove_checkHalt_halted a hpos ha, fun a₁ a₂ a₃ since s hpos => ?_⟩
  rcases awaitBanner_cases since s with ⟨hlt, hwait⟩ | ⟨hle, hgo⟩
  · refine ⟨fun _ => ?_, fun hle => absurd hle (not_le.mpr hlt)⟩
    rw [driverMove_haltWait a₁ hpos, hwait]
  · refine ⟨fun hlt => absurd hle (not_le.mpr hlt), fun _ => ?_⟩
    have hfirst := driverMove_haltWait a₁ hpos
    rw [hgo] at hfirst
    rw [driverRun_cons hfirst, driverRun_cons (driverMove_haltBanner a₂ rfl),
      driverRun_cons (driverMove_haltNotify a₃ rfl)]
    simp only [List.append_assoc]
    rfl

/-- Settles O43: the three cases of the measurement, the quotient cleared of its denominator. -/
theorem measurementPublishesTheRate : Obligations.MeasurementPublishesTheRate := by
  intro a s hpos
  rw [driverMove_measure a hpos]
  rcases measureRate_cases (s.clock - s.drv.startTime) s with ⟨hlt, h⟩ | ⟨hle, ht, h⟩ | ⟨hle, ht, h⟩ <;> rw [h]
  · have hnot : ¬ 10000 ≤ s.drv.sinceMeasure := Nat.not_le.mpr hlt
    exact ⟨fun _ => rfl, fun hge => absurd hge hnot, fun hge => absurd hge hnot⟩
  · have hnot : ¬ s.drv.sinceMeasure < 10000 := Nat.not_lt.mpr hle
    have htime : ¬ s.drv.startTime < s.clock := not_lt.mpr (sub_nonpos.mp ht)
    exact ⟨fun hlt => absurd hlt hnot, fun _ _ => rfl, fun _ hlt => absurd hlt htime⟩
  · have hnot : ¬ s.drv.sinceMeasure < 10000 := Nat.not_lt.mpr hle
    have htime : ¬ s.clock ≤ s.drv.startTime := not_le.mpr (sub_pos.mp ht)
    exact ⟨fun hlt => absurd hlt hnot, fun _ hge => absurd hge htime,
      fun _ _ => ⟨_, div_mul_cancel₀ _ ht.ne', rfl⟩⟩

/-- Settles O44: the entry of a CPU step, then each of the CPU's moves inside it. -/
theorem cpuAccessIsOneBusTransaction : Obligations.CpuAccessIsOneBusTransaction := by
  refine ⟨fun ans s hpos hrun => driverMove_cpuEntry ans hpos hrun, fun ans sp a v n s hpos => ?_⟩
  rw [driverMove_cpuBody ans hpos]
  refine ⟨fun u hroute => ⟨fun hm => ?_, fun hm => ?_⟩, fun hroute => ⟨fun hm => ?_, fun hm => ?_⟩,
    fun hm => ?_, fun hm => ?_, fun hm => ?_, fun hm => ?_⟩ <;> rw [hm]
  · rw [cpuMove, hroute]
    rfl
  · rw [cpuMove, hroute]
    rfl
  · rw [cpuMove, hroute]
    rfl
  · rw [cpuMove, hroute]
    rfl
  all_goals rfl

end Sys2Proof.Machine
end

section
/-! Steps of the machine (O35, O42, O51, O55, O56): what a step runs, what every step keeps of the state, and the start
of the driver task and its end. -/

namespace Sys2Proof.Machine

/-! What a step runs -/

theorem step_of_inbox_cons {x : Input} {rest : List Input} {s : State} (h : s.inbox = x :: rest) :
    step s = act x { s with inbox := rest } := by
  rw [step, h]

theorem step_of_inbox_nil {s : State} (h : s.inbox = []) :
    step s = agentMove (Config.environment s.draws) { s with draws := s.draws + 1 } := by
  rw [step, h]

/-- Settles O51: the head of the inbox acts, and a free move acts as if it were the head. -/
theorem stepRunsTheDecodedTransaction : Obligations.StepRunsTheDecodedTransaction := by
  refine ⟨fun w rest s hin => ⟨fun i hi => ?_, fun e he => ?_⟩, fun m rest s hin => ⟨?_, ?_, ?_⟩, fun s hin => ?_⟩
  · exact (step_of_inbox_cons hin).trans (Laws.presentWord_of_ok hi)
  · exact (step_of_inbox_cons hin).trans (Laws.presentWord_of_error he)
  · rintro a rfl
    exact step_of_inbox_cons hin
  · rintro unit op arg rfl
    exact step_of_inbox_cons hin
  · rintro num den rfl
    exact step_of_inbox_cons hin
  · rw [step_of_inbox_nil hin, step_of_inbox_cons rfl, act, ← hin]

/-- A step that runs no listed word is a move of an agent, or of the clock, with its input taken. -/
theorem step_eq_agentMove {s : State} (hword : ∀ w rest, s.inbox ≠ .word w :: rest) :
    ∃ m inbox draws, step s = agentMove m { s with inbox := inbox, draws := draws } := by
  cases hin : s.inbox with
  | nil => exact ⟨_, s.inbox, s.draws + 1, step_of_inbox_nil hin⟩
  | cons x rest =>
    cases x with
    | word w => exact absurd hin (hword w rest)
    | agent m => exact ⟨m, rest, s.draws, step_of_inbox_cons hin⟩

/-! What a step of the driver task can do -/

/-- A step of the driver task from `s` to `t` (R181, R185): what it can change, by the part of the task it is in. -/
inductive DriverStep (s t : State) : Prop where
  /-- A task that has ended, an access that reaches nothing of the block, or a delay that has not passed. -/
  | stay (ht : t = s)
  /-- An access or a take of the CPU. -/
  | transaction (i : Instr) (h : exec i s = .next t)
  /-- A step inside the loop that writes no more than NMI, the reset request and the count of CPU resets. -/
  | loop (nmi rstreq : Bool) (p : Position) (resets : Nat) (r : Returned)
      (hfrom : s.drv.pos.inLoop = true) (hto : p.inLoop = true)
      (ht : t = { s with
        tic := { s.tic with nmi := nmi, rstreq := rstreq }
        drv := { s.drv with pos := p, cpuResets := resets }
        ret := r })
  /-- Step 2. -/
  | account (n : Nat) (hpos : s.drv.pos = .account n)
      (ht : t = { s with drv := { s.drv with
        cumCycles := s.drv.cumCycles + n, sinceMeasure := s.drv.sinceMeasure + n, pos := .tick n } })
  /-- Step 3. -/
  | tick (n : Nat) (hpos : s.drv.pos = .tick n)
      (ht : t = { s with
        tic := (s.tic.tick n).2, drv := { s.drv with pos := .raiseNmi (s.tic.tick n).1 },
        ret := .flag (s.tic.tick n).1 })
  /-- The loop of a driver that does not run has no first step. -/
  | leave (hpos : s.drv.pos = .cpuEntry) (hrun : s.drv.dstate ≠ .running)
      (ht : t = { s with drv := { s.drv with pos := .terminated } })
  /-- Step 6, for a CPU that has halted. -/
  | halt (hpos : s.drv.pos = .checkHalt)
      (ht : t = { s with drv := { s.drv with dstate := .halted, pos := .haltWait s.clock } })
  /-- The end of the banner delay, or the banner. -/
  | banner (p : Position) (addr : Vector Byte 4) (data : Vector Byte 2) (es : List Event)
      (hfrom : s.drv.pos.inHaltExit = true) (hto : p = .haltBanner ∨ p = .haltNotify)
      (ht : t = { s with
        dkc := { s.dkc with addr := addr, data := data }, drv := { s.drv with pos := p }, events := s.events ++ es })
  /-- The halted notification. -/
  | notify (hpos : s.drv.pos = .haltNotify)
      (ht : t = { s with drv := { s.drv with pos := s.drv.afterHaltExit }, events := s.events ++ [.halted] })
  /-- Step 7, with a cancellation waiting. -/
  | cancel (hpos : s.drv.pos = .checkCancel) (htoken : s.drv.cancelReq = true)
      (ht : t = { s with drv := { s.drv with dstate := .cancelled, pos := .terminated } })
  /-- Step 8. -/
  | measure (m : Nat) (hz : Option Rat) (es : List Event) (hpos : s.drv.pos = .measure)
      (hm : m ≤ s.drv.sinceMeasure) (hrate : hz = s.drv.clockRateHz ∨ ∃ x : Rat, 0 ≤ x ∧ hz = some x)
      (ht : t = { s with
        drv := { s.drv with sinceMeasure := m, clockRateHz := hz, pos := .cpuEntry }, events := s.events ++ es })

/-- A rate that the measurement publishes is a quotient of numbers that are not negative (R190). -/
theorem driverStep_measure {s t : State} (hpos : s.drv.pos = .measure)
    (ht : t = (measureRate (s.clock - s.drv.startTime) s).goto .cpuEntry) : DriverStep s t := by
  subst ht
  rcases measureRate_cases (s.clock - s.drv.startTime) s with ⟨-, e⟩ | ⟨-, -, e⟩ | ⟨-, htime, e⟩ <;> rw [e]
  · exact .measure s.drv.sinceMeasure s.drv.clockRateHz [] hpos le_rfl (.inl rfl) (by rw [List.append_nil]; rfl)
  · exact .measure 0 s.drv.clockRateHz [] hpos (Nat.zero_le _) (.inl rfl) (by rw [List.append_nil]; rfl)
  · exact .measure 0 _ _ hpos (Nat.zero_le _) (.inr ⟨_, div_nonneg (Nat.cast_nonneg _) htime.le, rfl⟩) rfl

/-- Every step of the driver task is one of these. -/
theorem driverMove_step {a : CpuAnswer} {s t : State} (h : driverMove a s = .next t) : DriverStep s t := by
  cases hpos : s.drv.pos with
  | terminated =>
    rw [driverMove_terminated a hpos] at h
    exact .stay (Host.Outcome.next.inj h).symm
  | cpuEntry =>
    by_cases hrun : s.drv.dstate = .running
    · rw [driverMove_cpuEntry a hpos hrun] at h
      exact .loop false s.tic.rstreq .cpuBody s.drv.cpuResets _ (by rw [hpos]; rfl) rfl (Host.Outcome.next.inj h).symm
    · rw [driverMove_cpuEntry_of_not_running a hpos hrun] at h
      exact .leave hpos hrun (Host.Outcome.next.inj h).symm
  | cpuBody =>
    rw [driverMove_cpuBody a hpos] at h
    rcases cpuMove_cases a.move s with e | ⟨i, e⟩ | ⟨n, e⟩ <;> rw [e] at h
    · exact .stay (Host.Outcome.next.inj h).symm
    · exact .transaction i h
    · exact .loop s.tic.nmi s.tic.rstreq (.account n) s.drv.cpuResets s.ret (by rw [hpos]; rfl) rfl
        (Host.Outcome.next.inj h).symm
  | account n =>
    rw [driverMove_account a hpos] at h
    exact .account n hpos (Host.Outcome.next.inj h).symm
  | tick n =>
    rw [driverMove_tick a hpos] at h
    exact .tick n hpos (Host.Outcome.next.inj h).symm
  | raiseNmi elapsed =>
    rw [driverMove_raiseNmi a hpos] at h
    exact .loop _ s.tic.rstreq .takeReset s.drv.cpuResets s.ret (by rw [hpos]; rfl) rfl (Host.Outcome.next.inj h).symm
  | takeReset =>
    rw [driverMove_takeReset a hpos] at h
    exact .loop s.tic.nmi false .checkHalt _ _ (by rw [hpos]; rfl) rfl (Host.Outcome.next.inj h).symm
  | checkHalt =>
    cases ha : a.halted with
    | true =>
      rw [driverMove_checkHalt_halted a hpos ha] at h
      exact .halt hpos (Host.Outcome.next.inj h).symm
    | false =>
      rw [driverMove_checkHalt_going a hpos ha] at h
      exact .loop s.tic.nmi s.tic.rstreq .checkCancel s.drv.cpuResets s.ret (by rw [hpos]; rfl) rfl
        (Host.Outcome.next.inj h).symm
  | haltWait since =>
    rw [driverMove_haltWait a hpos] at h
    rcases awaitBanner_cases since s with ⟨-, e⟩ | ⟨-, e⟩ <;> rw [e] at h
    · exact .stay (Host.Outcome.next.inj h).symm
    · exact .banner .haltBanner s.dkc.addr s.dkc.data [] (by rw [hpos]; rfl) (.inl rfl)
        (by rw [List.append_nil]; exact (Host.Outcome.next.inj h).symm)
  | haltBanner =>
    rw [driverMove_haltBanner a hpos] at h
    exact .banner .haltNotify _ _ _ (by rw [hpos]; rfl) (.inr rfl) (Host.Outcome.next.inj h).symm
  | haltNotify =>
    rw [driverMove_haltNotify a hpos] at h
    exact .notify hpos (Host.Outcome.next.inj h).symm
  | checkCancel =>
    cases hc : s.drv.cancelReq with
    | true =>
      rw [driverMove_checkCancel_cancelled a hpos hc] at h
      exact .cancel hpos hc (Host.Outcome.next.inj h).symm
    | false =>
      rw [driverMove_checkCancel_going a hpos hc] at h
      exact .loop s.tic.nmi s.tic.rstreq .measure s.drv.cpuResets s.ret (by rw [hpos]; rfl) rfl
        (Host.Outcome.next.inj h).symm
  | measure =>
    rw [driverMove_measure a hpos] at h
    exact driverStep_measure hpos (Host.Outcome.next.inj h).symm

/-! What every step keeps -/

/-- A step of the driver task keeps the setting, and takes no event out of the history. -/
theorem DriverStep.grows {s t : State} (h : DriverStep s t) : SameSetting s t ∧ s.events <+: t.events := by
  cases h with
  | transaction i h => exact ⟨exec_sameSetting h, exec_events h⟩
  | banner p addr data es _ _ ht => subst ht; exact ⟨⟨rfl, rfl, rfl, rfl⟩, List.prefix_append _ _⟩
  | notify _ ht => subst ht; exact ⟨⟨rfl, rfl, rfl, rfl⟩, List.prefix_append _ _⟩
  | measure m hz es _ _ _ ht => subst ht; exact ⟨⟨rfl, rfl, rfl, rfl⟩, List.prefix_append _ _⟩
  | stay ht | loop _ _ _ _ _ _ _ ht | account _ _ ht | tick _ _ ht | leave _ _ ht | halt _ ht | cancel _ _ ht =>
    subst ht; exact ⟨⟨rfl, rfl, rfl, rfl⟩, List.prefix_rfl⟩

/-- A step keeps the parameters and takes no event out of the history. -/
theorem step_grows {s t : State} (h : step s = .next t) : t.cfg = s.cfg ∧ s.events <+: t.events := by
  obtain ⟨x, inbox, draws, e⟩ := step_cases s
  rw [e] at h
  rcases act_next h with ⟨i, hi⟩ | ⟨a, ha⟩ | ⟨num, den, rfl⟩
  · have hevents := exec_events hi
    exact ⟨(exec_sameSetting hi).cfg, hevents⟩
  · obtain ⟨hset, hevents⟩ := (driverMove_step ha).grows
    exact ⟨hset.cfg, hevents⟩
  · exact ⟨rfl, List.prefix_rfl⟩

/-- Settles O55: no transaction and no step of the driver task writes the setting. -/
theorem parametersNeverChange : Obligations.ParametersNeverChange :=
  fun _ _ h => (step_grows h).1

/-- Settles O56: events are only appended. -/
theorem eventHistoryOnlyGrows : Obligations.EventHistoryOnlyGrows :=
  fun _ _ h => (step_grows h).2

/-! The start and the end of the driver task -/

/-- Two regions share an address exactly where each begins before the other ends. -/
theorem Region.overlaps_iff (m r : Region) :
    m.overlaps r = true ↔ ∃ x, (m.base ≤ x ∧ x < m.base + m.size) ∧ r.base ≤ x ∧ x < r.base + r.size := by
  simp only [Region.overlaps, Bool.and_eq_true, decide_eq_true_eq]
  constructor
  · rintro ⟨⟨⟨hr, hm⟩, hmsize⟩, hrsize⟩
    exact ⟨max m.base r.base, by omega⟩
  · rintro ⟨x, hm, hr⟩
    omega

/-- A configuration is invalid exactly for an image that does not fit or overlaps a reserved region (R192). -/
theorem imagesFit_eq_false_iff (c : Config) :
    c.imagesFit = false ↔ ∃ m ∈ c.images, c.spaceSize < m.base + m.size ∨ ∃ r ∈ c.reserved, m.overlaps r = true := by
  simp only [Config.imagesFit, List.all_eq_false, Bool.and_eq_true, Bool.not_eq_true', decide_eq_true_eq, not_and,
    Bool.not_eq_false, List.any_eq_true]
  refine exists_congr fun m => and_congr_right fun _ => ?_
  rw [← Nat.not_le, imp_iff_not_or]

theorem execDrvStart_configurationError_iff {s : State} (hstop : s.drv.dstate ≠ .running) :
    execDrvStart s = .refused .configurationError ↔ s.cfg.imagesFit = false := by
  rw [execDrvStart, if_pos ((Driver.stopped_iff s.drv).mpr hstop)]
  cases s.cfg.imagesFit <;> simp

/-- Settles O35: the two ways in which an image is invalid, the overlap as a shared address. -/
theorem startRefusesABadImage : Obligations.StartRefusesABadImage := by
  intro s hstop
  have hiff := (execDrvStart_configurationError_iff hstop).trans (imagesFit_eq_false_iff s.cfg)
  simp only [Region.overlaps_iff] at hiff
  exact hiff

/-- The two transactions of the driver's own unit (R82). -/
theorem eq_of_driver_unit {i : Instr} (h : wordUnit (encode i) = 2) : i = .drvCancel ∨ i = .drvStart := by
  cases i <;> simp [encode] at h ⊢

/-- A transaction keeps the driver, sets its token, or starts a fresh task (R188, R189). -/
theorem exec_drv_cases {i : Instr} {s t : State} (h : exec i s = .next t) :
    t.drv = s.drv ∨ t.drv = { s.drv with cancelReq := true } ∨ t.drv = s.drv.start s.clock := by
  by_cases hunit : wordUnit (encode i) = 2
  · rcases eq_of_driver_unit hunit with rfl | rfl
    · cases h
      exact .inr (.inl rfl)
    · obtain ⟨-, -, rfl⟩ := execDrvStart_next h
      exact .inr (.inr rfl)
  · obtain ⟨-, -, hdrv⟩ := transactionsTouchOnlyTheirUnit i s t h
    exact .inl (hdrv hunit)

/-- Nothing but a token read at step 7 makes the driver cancelled (R187). -/
theorem DriverStep.cancelled {s t : State} (h : DriverStep s t) (hs : s.drv.dstate ≠ .cancelled)
    (ht : t.drv.dstate = .cancelled) : s.drv.pos = .checkCancel ∧ s.drv.cancelReq = true := by
  cases h with
  | cancel hpos htoken _ => exact ⟨hpos, htoken⟩
  | transaction i h =>
    rcases exec_drv_cases h with e | e | e <;> rw [e] at ht
    · exact absurd ht hs
    · exact absurd ht hs
    · cases ht
  | halt _ e => subst e; cases ht
  | stay e | loop _ _ _ _ _ _ _ e | account _ _ e | tick _ _ e | leave _ _ e | banner _ _ _ _ _ _ e | notify _ e
  | measure _ _ _ _ _ _ e =>
    subst e; exact absurd ht hs

theorem driverRun_terminated (as : List CpuAnswer) {s : State} (h : s.drv.pos = .terminated) :
    driverRun as s = some s := by
  induction as with
  | nil => rfl
  | cons a as ih => rw [driverRun_cons (driverMove_terminated a h), ih]

/-- With the driver ended, a move of an agent or of the clock is an operation of KIND 3, or changes the clock alone. -/
theorem agentMove_of_terminated {m : AgentMove} {s t : State} (hpos : s.drv.pos = .terminated)
    (h : agentMove m s = .next t) :
    (∃ i : Instr, wordKind (encode i) = 3 ∧ exec i s = .next t) ∨ t = { s with clock := t.clock } := by
  rcases agentMove_next h with ⟨unit, op, arg, i, hdec, hexec⟩ | ⟨a, ha⟩ | ⟨num, den, rfl⟩
  · obtain ⟨-, hword⟩ := Laws.encodeOfDecodeIsTheWord _ _ i hdec
    exact .inl ⟨i, by rw [hword, Laws.wordKind_opWord], hexec⟩
  · rw [driverMove_terminated a hpos] at ha
    cases ha
    exact .inr rfl
  · exact .inr rfl

/-- Settles O42: step 7, what else could cancel, the ended task, and what an agent's move does beside it. -/
theorem cancellationEndsTheLoopAtStepSeven : Obligations.CancellationEndsTheLoopAtStepSeven := by
  refine ⟨fun a s hpos htoken => driverMove_checkCancel_cancelled a hpos htoken,
    fun a s t h hs ht => (driverMove_step h).cancelled hs ht, fun as s hpos => driverRun_terminated as hpos,
    fun s t hpos hword h => ?_⟩
  obtain ⟨m, inbox, draws, e⟩ := step_eq_agentMove hword
  rw [e] at h
  rcases agentMove_of_terminated (s := { s with inbox := inbox, draws := draws }) hpos h with ⟨i, hkind, hexec⟩ | ht
  · obtain ⟨-, hinbox, hdraws, -⟩ := exec_sameSetting hexec
    rw [hinbox, hdraws]
    exact .inl ⟨i, hkind, hexec⟩
  · rw [ht]
    exact .inr rfl

end Sys2Proof.Machine
end

section
/-! The invariant of the machine (O52, O53) and its state at reset (O54): each unit's part of the invariant, kept by
every transaction and by every step of the driver task. -/

namespace Sys2Proof.Machine

/-! The parts of the invariant -/

/-- What the invariant says of the TIC. -/
structure Tic.Inv (t : Tic) : Prop where
  period_lt : t.period.toNat < 0x4000
  count_lt : t.count.toNat < 0x4000
  stopped_count : t.tstate = .stopped → t.count = 0
  outputByte_lt : t.outputByte.toNat < 0x80
  transcript_lt : ∀ c ∈ t.transcript, c.toNat < 0x80

/-- What the invariant says of the driver, where the wall clock reads `now`. -/
structure Driver.Inv (d : Driver) (now : Rat) : Prop where
  measure_le : d.sinceMeasure ≤ d.cumCycles
  start_le : d.startTime ≤ now
  rate_nonneg : ∀ hz, d.clockRateHz = some hz → 0 ≤ hz
  wait_le : ∀ since, d.pos = .haltWait since → since ≤ now
  coherent : d.coherent = true

theorem State.inv_iff (s : State) : s.Inv ↔ 1 ≤ s.dkc.fseq ∧ s.tic.Inv ∧ s.drv.Inv s.clock := by
  constructor
  · intro h
    exact ⟨h.fseq_pos, ⟨h.period_lt, h.count_lt, h.stopped_count, h.outputByte_lt, h.transcript_lt⟩,
      ⟨h.measure_le, h.start_le, h.rate_nonneg, h.wait_le, h.driver_coherent⟩⟩
  · rintro ⟨hd, ht, hr⟩
    exact ⟨hd, ht.period_lt, ht.count_lt, ht.stopped_count, ht.outputByte_lt, ht.transcript_lt,
      hr.measure_le, hr.start_le, hr.rate_nonneg, hr.wait_le, hr.coherent⟩

/-! The display/keyboard controller -/

/-- No transaction sets the counter to 0 (R22). -/
theorem exec_fseq_pos {i : Instr} {s t : State} (hs : 1 ≤ s.dkc.fseq) (h : exec i s = .next t) : 1 ≤ t.dkc.fseq := by
  by_cases hunit : wordUnit (encode i) = 0
  case neg =>
    obtain ⟨hdkc, -, -⟩ := transactionsTouchOnlyTheirUnit i s t h
    rw [hdkc hunit]
    exact hs
  cases i <;> simp only [encode, Laws.wordUnit_busWord, Laws.wordUnit_opWord] at hunit
  case dkcRdKey a =>
    rw [exec_dkcRdKey] at h
    cases h
    exact hs
  case dkcRdStatus | dkcRdNone | dkcWrNone | dkcKeyEnq =>
    cases h
    exact hs
  case dkcBanner =>
    obtain rfl := Host.Outcome.next.inj h
    rw [writeBanner_eq]
    exact hs
  case dkcWrCtrl =>
    cases h
    exact le_rfl
  case dkcWrDisp a v =>
    obtain rfl := Host.Outcome.next.inj h
    rcases displayWrite_cases v s with e | e | ⟨_, -, e⟩ | ⟨_, -, e⟩ <;> rw [e]
    · exact hs
    · exact Nat.le_add_left 1 _
    · exact Nat.le_add_left 1 _
    · exact Nat.le_add_left 1 _
  case dkcReset | dkcPowerOn =>
    obtain ⟨-, rfl⟩ := whenStopped_next h
    exact le_rfl
  all_goals exact absurd hunit (by decide)

/-! The timer, the latches and the serial line -/

theorem Tic.Inv.powerOn : Tic.powerOn.Inv where
  period_lt := by decide
  count_lt := by decide
  stopped_count h := by cases h
  outputByte_lt := by decide
  transcript_lt _ h := absurd h List.not_mem_nil

/-- The shift leaves bit 7 of the accumulator 0 (R162, D18). -/
theorem serialShiftOut_lt (b v : Byte) : (serialShiftOut b v).toNat < 0x80 := by
  rw [serialShiftOut, BitVec.toNat_ushiftRight, Nat.shiftRight_eq_div_pow]
  have := (b ||| (~~~v &&& 0x80#8)).isLt
  omega

theorem Tic.Inv.tick {t : Tic} (h : t.Inv) (n : Nat) : (t.tick n).2.Inv := by
  obtain ⟨hperiod, hcount, hstopped, hout, htrans⟩ := h
  rcases t.tick_cases n with e | ⟨hx, c, hc, e⟩ | ⟨hx, e⟩ | ⟨-, e⟩ <;> rw [e]
  · exact ⟨hperiod, hcount, hstopped, hout, htrans⟩
  · refine ⟨hperiod, lt_of_le_of_lt hc hcount, fun hstop => ?_, hout, htrans⟩
    rcases hx with hx | hx <;> cases hx.symm.trans hstop
  · exact ⟨hperiod, hperiod, fun hstop => (by cases hx.symm.trans hstop), hout, htrans⟩
  · exact ⟨hperiod, (by decide : (0 : Half).toNat < 0x4000), fun _ => rfl, hout, htrans⟩

theorem Tic.Inv.serialWrite {s : State} (h : s.tic.Inv) (v : Byte) : (serialWrite v s).tic.Inv := by
  obtain ⟨hperiod, hcount, hstopped, hout, htrans⟩ := h
  have hshift := serialShiftOut_lt s.tic.outputByte v
  rcases serialWrite_cases v s with ⟨-, e⟩ | ⟨-, e⟩ <;> rw [e]
  · exact ⟨hperiod, hcount, hstopped, hshift, htrans⟩
  · refine ⟨hperiod, hcount, hstopped, hshift, fun c hc => ?_⟩
    rcases List.mem_append.mp hc with hold | hnew
    · exact htrans c hold
    · rw [List.mem_singleton.mp hnew]
      exact hshift

/-- A period write leaves 14 bits (R26). -/
theorem periodWithLow_lt {p : Half} (v : Byte) (h : p.toNat < 0x4000) : (periodWithLow p v).toNat < 0x4000 := by
  rw [periodWithLow_toNat]
  have := v.isLt
  omega

theorem periodWithHigh_lt (p : Half) (v : Byte) : (periodWithHigh p v).toNat < 0x4000 := by
  rw [periodWithHigh_toNat]
  omega

/-- Every transaction keeps the TIC's part. -/
theorem Tic.Inv.exec {i : Instr} {s t : State} (hs : s.tic.Inv) (h : exec i s = .next t) : t.tic.Inv := by
  obtain ⟨hperiod, hcount, hstopped, hout, htrans⟩ := id hs
  by_cases hunit : wordUnit (encode i) = 1
  case neg =>
    obtain ⟨-, htic, -⟩ := transactionsTouchOnlyTheirUnit i s t h
    rw [htic hunit]
    exact hs
  cases i <;> simp only [encode, Laws.wordUnit_busWord, Laws.wordUnit_opWord] at hunit
  case ticWrCmdAbort | ticWrCmdPend =>
    cases h
    exact ⟨hperiod, hcount, fun hstop => (by cases hstop), hout, htrans⟩
  case ticWrCmdStart =>
    cases h
    exact ⟨hperiod, hperiod, fun hstop => (by cases hstop), hout, htrans⟩
  case ticWrPlo a v =>
    cases h
    exact ⟨periodWithLow_lt v hperiod, hcount, hstopped, hout, htrans⟩
  case ticWrPhi a v =>
    cases h
    exact ⟨periodWithHigh_lt _ v, hcount, hstopped, hout, htrans⟩
  case ticTick n =>
    cases h
    exact hs.tick n.toNat
  case ticWrSerOn a v =>
    cases h
    exact hs.serialWrite v
  case ticRdSer a =>
    obtain rfl := Host.Outcome.next.inj h
    obtain ⟨_, _, _, _, e⟩ := serialRead_frame s
    rw [e]
    exact ⟨hperiod, hcount, hstopped, hout, htrans⟩
  case ticWrNone a v =>
    obtain rfl := Host.Outcome.next.inj h
    obtain ⟨_, e⟩ := unassignedPortWrite_frame a v s
    rw [e]
    exact ⟨hperiod, hcount, hstopped, hout, htrans⟩
  case ticReset | ticPowerOn =>
    obtain ⟨-, rfl⟩ := whenStopped_next h
    exact .powerOn
  case ticWrCmdNop | ticWrSerOff | ticRdNone | ticTakeNmi | ticTakeInt | ticTakeReset | ticTakeData | ticSetNmi
    | ticSetSid | ticSetInt | ticSetData | ticReqReset =>
    cases h
    exact ⟨hperiod, hcount, hstopped, hout, htrans⟩
  all_goals exact absurd hunit (by decide)

/-! The driver -/

/-- Where the task may stand in each state of the driver. -/
theorem Driver.coherent_iff (d : Driver) :
    d.coherent = true ↔
      (d.dstate = .running ∧ (d.pos.inLoop = true ∨ d.pos.inHaltExit = true)) ∨
      (d.dstate = .halted ∧ (d.pos.inHaltExit = true ∨ d.pos = .terminated)) ∨
      (d.dstate = .cancelled ∧ d.pos = .terminated) := by
  cases hd : d.dstate <;> simp [Driver.coherent, hd]

/-- A task in the loop has a running driver. -/
theorem Driver.Inv.running_of_inLoop {d : Driver} {now : Rat} (h : d.Inv now) (hpos : d.pos.inLoop = true) :
    d.dstate = .running := by
  have hended : d.pos ≠ .terminated := fun e => by rw [e] at hpos; cases hpos
  have hexit : d.pos.inHaltExit ≠ true := by
    cases hp : d.pos <;> simp_all [Position.inLoop, Position.inHaltExit]
  rcases d.coherent_iff.mp h.coherent with ⟨hrun, -⟩ | ⟨-, hp | hp⟩ | ⟨-, hp⟩
  · exact hrun
  · exact absurd hp hexit
  · exact absurd hp hended
  · exact absurd hp hended

/-- A task in the halt exit has a driver that has halted, or one that a START has set running since (log entry 10). -/
theorem Driver.Inv.running_or_halted_of_inHaltExit {d : Driver} {now : Rat} (h : d.Inv now)
    (hpos : d.pos.inHaltExit = true) : d.dstate = .running ∨ d.dstate = .halted := by
  rcases d.coherent_iff.mp h.coherent with ⟨hrun, -⟩ | ⟨hhalt, -⟩ | ⟨-, hp⟩
  · exact .inl hrun
  · exact .inr hhalt
  · rw [hp] at hpos
    cases hpos

/-- A move of the task alone keeps the counts, the start and the rate. -/
theorem Driver.Inv.goto {d : Driver} {now : Rat} (h : d.Inv now) {x : DriverState} {p : Position} (n : Nat)
    (hwait : ∀ since, p = .haltWait since → since ≤ now)
    (hcoh : ({ d with dstate := x, pos := p, cpuResets := n } : Driver).coherent = true) :
    ({ d with dstate := x, pos := p, cpuResets := n } : Driver).Inv now :=
  ⟨h.measure_le, h.start_le, h.rate_nonneg, hwait, hcoh⟩

theorem Driver.coherent_of_running_inLoop {d : Driver} (hrun : d.dstate = .running) (hpos : d.pos.inLoop = true) :
    d.coherent = true :=
  d.coherent_iff.mpr (.inl ⟨hrun, .inl hpos⟩)

theorem ne_haltWait_of_inLoop {p : Position} (h : p.inLoop = true) (since : Rat) : p ≠ .haltWait since := by
  rintro rfl
  cases h

/-- A fresh task meets the driver's part. -/
theorem Driver.Inv.start {d : Driver} {now : Rat} (h : d.Inv now) : (d.start now).Inv now where
  measure_le := le_rfl
  start_le := le_rfl
  rate_nonneg _ e := by cases e
  wait_le since e := by
    rcases d.pos.afterStart_cases with ⟨-, hp⟩ | ⟨-, hp⟩
    · exact h.wait_le since (hp.symm.trans e)
    · cases hp.symm.trans e
  coherent := by
    refine (d.start now).coherent_iff.mpr (.inl ⟨rfl, ?_⟩)
    change d.pos.afterStart.inLoop = true ∨ d.pos.afterStart.inHaltExit = true
    rcases d.pos.afterStart_cases with ⟨hexit, hp⟩ | ⟨-, hp⟩ <;> rw [hp]
    · exact .inr hexit
    · exact .inl rfl

/-- Every transaction keeps the driver's part. -/
theorem Driver.Inv.exec {i : Instr} {s t : State} (hs : s.drv.Inv s.clock) (h : exec i s = .next t) :
    t.drv.Inv t.clock := by
  rw [(exec_sameSetting h).clock]
  rcases exec_drv_cases h with e | e | e <;> rw [e]
  · exact hs
  · exact ⟨hs.measure_le, hs.start_le, hs.rate_nonneg, hs.wait_le, hs.coherent⟩
  · exact hs.start

/-- Every step of the driver task keeps the driver's part. -/
theorem Driver.Inv.driverStep {s t : State} (hs : s.drv.Inv s.clock) (h : DriverStep s t) : t.drv.Inv t.clock := by
  have looping {p : Position} (hfrom : s.drv.pos = p) (hp : p.inLoop = true) : s.drv.dstate = .running :=
    hs.running_of_inLoop (hfrom ▸ hp)
  cases h with
  | stay ht => subst ht; exact hs
  | transaction i h => exact hs.exec h
  | loop nmi rstreq p resets r hfrom hto ht =>
    subst ht
    exact hs.goto resets (fun since e => absurd e (ne_haltWait_of_inLoop hto since))
      (Driver.coherent_of_running_inLoop (hs.running_of_inLoop hfrom) hto)
  | account n hpos ht =>
    subst ht
    exact ⟨Nat.add_le_add_right hs.measure_le n, hs.start_le, hs.rate_nonneg, fun _ e => (by cases e),
      Driver.coherent_of_running_inLoop (looping hpos rfl) rfl⟩
  | tick n hpos ht =>
    subst ht
    exact hs.goto _ (fun _ e => by cases e) (Driver.coherent_of_running_inLoop (looping hpos rfl) rfl)
  | leave hpos hrun ht => exact absurd (looping hpos rfl) hrun
  | halt hpos ht =>
    subst ht
    exact hs.goto _ (fun since e => (by cases e; exact le_rfl)) rfl
  | banner p addr data es hfrom hto ht =>
    subst ht
    refine hs.goto _ (fun since e => ?_) ((Driver.coherent_iff _).mpr ?_)
    · rcases hto with rfl | rfl <;> cases e
    · have hexit : p.inHaltExit = true := by rcases hto with rfl | rfl <;> rfl
      rcases hs.running_or_halted_of_inHaltExit hfrom with hrun | hhalt
      · exact .inl ⟨hrun, .inr hexit⟩
      · exact .inr (.inl ⟨hhalt, .inl hexit⟩)
  | notify hpos ht =>
    subst ht
    rcases hs.running_or_halted_of_inHaltExit (by rw [hpos]; rfl) with hrun | hhalt
    · have hp : s.drv.afterHaltExit = .cpuEntry := if_pos hrun
      rw [hp]
      exact hs.goto _ (fun _ e => by cases e) (Driver.coherent_of_running_inLoop hrun rfl)
    · have hp : s.drv.afterHaltExit = .terminated := if_neg (by rw [hhalt]; decide)
      rw [hp]
      exact hs.goto _ (fun _ e => by cases e) ((Driver.coherent_iff _).mpr (.inr (.inl ⟨hhalt, .inr rfl⟩)))
  | cancel hpos htoken ht =>
    subst ht
    exact hs.goto _ (fun _ e => by cases e) rfl
  | measure m hz es hpos hm hrate ht =>
    subst ht
    refine ⟨hm.trans hs.measure_le, hs.start_le, fun x e => ?_, fun _ e => (by cases e),
      Driver.coherent_of_running_inLoop (looping hpos rfl) rfl⟩
    rcases hrate with hold | ⟨y, hy, hnew⟩
    · exact hs.rate_nonneg x (hold.symm.trans e)
    · cases hnew.symm.trans e
      exact hy

/-- The passing of time keeps the driver's part: the clock never decreases. -/
theorem Driver.Inv.mono {d : Driver} {now later : Rat} (h : d.Inv now) (hle : now ≤ later) : d.Inv later :=
  ⟨h.measure_le, h.start_le.trans hle, h.rate_nonneg, fun since e => (h.wait_le since e).trans hle, h.coherent⟩

/-! The whole machine -/

theorem State.Inv.exec {i : Instr} {s t : State} (hs : s.Inv) (h : exec i s = .next t) : t.Inv := by
  obtain ⟨hdkc, htic, hdrv⟩ := s.inv_iff.mp hs
  exact t.inv_iff.mpr ⟨exec_fseq_pos hdkc h, htic.exec h, hdrv.exec h⟩

theorem State.Inv.driverStep {s t : State} (hs : s.Inv) (h : DriverStep s t) : t.Inv := by
  obtain ⟨hdkc, htic, hdrv⟩ := s.inv_iff.mp hs
  refine t.inv_iff.mpr ⟨?_, ?_, hdrv.driverStep h⟩
  · cases h with
    | transaction i h => exact exec_fseq_pos hdkc h
    | stay ht | loop _ _ _ _ _ _ _ ht | account _ _ ht | tick _ _ ht | leave _ _ ht | halt _ ht | banner _ _ _ _ _ _ ht
    | notify _ ht | cancel _ _ ht | measure _ _ _ _ _ _ ht =>
      subst ht; exact hdkc
  · cases h with
    | transaction i h => exact htic.exec h
    | tick n _ ht => subst ht; exact htic.tick n
    | loop nmi rstreq _ _ _ _ _ ht =>
      subst ht
      exact ⟨htic.period_lt, htic.count_lt, htic.stopped_count, htic.outputByte_lt, htic.transcript_lt⟩
    | stay ht | account _ _ ht | leave _ _ ht | halt _ ht | banner _ _ _ _ _ _ ht | notify _ ht | cancel _ _ ht
    | measure _ _ _ _ _ _ ht =>
      subst ht; exact htic

theorem State.Inv.passTime {s : State} (hs : s.Inv) (num den : Nat) : (passTime num den s).Inv := by
  obtain ⟨hdkc, htic, hdrv⟩ := s.inv_iff.mp hs
  have hamount : (0 : Rat) ≤ (num : Rat) / ((den : Rat) + 1) := by positivity
  exact (Machine.passTime num den s).inv_iff.mpr ⟨hdkc, htic, hdrv.mono (le_add_of_nonneg_right hamount)⟩

/-- Settles O52: a step is a transaction, a step of the driver task, or the passing of time. -/
theorem stepKeepsTheInvariant : Obligations.StepKeepsTheInvariant := by
  intro s t hs h
  obtain ⟨x, inbox, draws, e⟩ := step_cases s
  have hs' : ({ s with inbox := inbox, draws := draws } : State).Inv :=
    (State.inv_iff _).mpr (s.inv_iff.mp hs)
  rw [e] at h
  rcases act_next h with ⟨i, hi⟩ | ⟨a, ha⟩ | ⟨num, den, rfl⟩
  · exact hs'.exec hi
  · exact hs'.driverStep (driverMove_step ha)
  · exact hs'.passTime num den

/-- Settles O53: each part at its power-on values. -/
theorem resetMeetsTheInvariant : Obligations.ResetMeetsTheInvariant :=
  State.reset.inv_iff.mpr ⟨le_rfl, .powerOn, le_rfl, le_rfl, fun _ e => (by cases e), fun _ e => (by cases e), rfl⟩

/-- Settles O54: each field of the table's power-on column. -/
theorem resetLeavesThePowerOnState : Obligations.ResetLeavesThePowerOnState :=
  ⟨⟨rfl, rfl, rfl, rfl, rfl⟩, ⟨rfl, rfl, rfl⟩, ⟨rfl, rfl, rfl, rfl⟩, ⟨rfl, rfl, rfl, rfl, rfl, rfl⟩, rfl, rfl⟩

end Sys2Proof.Machine
end

section
/-! The display fields (O3, O4, O9 to O11): one write of the data register, a fill of a whole field, and the latches
that no transaction reads back. -/

namespace Sys2Proof.Machine

/-! One write of the data register -/

theorem displayWrite_of_cmdFillAddr (v : Byte) {s : State} (h : s.dkc.ctrl = cmdFillAddr) :
    displayWrite v s = fillAddr v s :=
  if_pos h

theorem displayWrite_of_cmdFillData (v : Byte) {s : State} (hne : s.dkc.ctrl ≠ cmdFillAddr)
    (h : s.dkc.ctrl = s.cfg.cmdFillData) : displayWrite v s = fillData v s :=
  (if_neg hne).trans (if_pos h)

theorem displayWrite_of_no_command (v : Byte) {s : State} (hne : s.dkc.ctrl ≠ cmdFillAddr)
    (hne' : s.dkc.ctrl ≠ s.cfg.cmdFillData) : displayWrite v s = s :=
  (if_neg hne).trans (if_neg hne')

/-- Settles O3: the command class, then the counter within the field or beyond it. -/
theorem displayWriteFillsTheNextSlot : Obligations.DisplayWriteFillsTheNextSlot := by
  intro a v s
  rw [exec_dkcWrDisp]
  refine ⟨fun h i hi => ?_, fun h hout => ?_, fun hne h i hi => ?_, fun hne h hout => ?_, fun hne hne' => ?_⟩
  · rw [displayWrite_of_cmdFillAddr v h, fillAddr_inRange v s i hi]
  · rw [displayWrite_of_cmdFillAddr v h, fillAddr_outOfRange v s hout]
  · rw [displayWrite_of_cmdFillData v hne h, fillData_inRange v s i hi]
  · rw [displayWrite_of_cmdFillData v hne h, fillData_outOfRange v s hout]
  · rw [displayWrite_of_no_command v hne hne']

/-- Each bit of a glyph is the inverse of the bit half a byte away (R100). -/
theorem glyph_getLsbD (v : Byte) {j : Nat} (hj : j < 8) : (glyph v).getLsbD j = !v.getLsbD ((j + 4) % 8) := by
  interval_cases j <;> simp [glyph, swap4]

/-- The glyph transform is its own inverse: half a byte twice is a whole one. -/
theorem glyph_glyph (g : Byte) : glyph (glyph g) = g := by
  refine BitVec.eq_of_getLsbD_eq fun j hj => ?_
  rw [glyph_getLsbD _ hj, glyph_getLsbD _ (Nat.mod_lt _ (by decide)), Bool.not_not]
  congr 1
  omega

/-- Settles O4: the write of O3, with the glyph of a glyph. -/
theorem writingTheGlyphOfAGlyphStoresIt : Obligations.WritingTheGlyphOfAGlyphStoresIt := by
  refine ⟨fun v j hj => glyph_getLsbD v hj, fun a g s => ?_⟩
  obtain ⟨haddr, -, hdata, -, -⟩ := displayWriteFillsTheNextSlot a (glyph g) s
  rw [glyph_glyph] at haddr hdata
  exact ⟨haddr, hdata⟩

/-! A fill of a whole field -/

/-- A field of `n` slots after the glyphs `gs` were written from its first slot on. -/
def filled {n : Nat} (v : Vector Byte n) (gs : List Byte) : Vector Byte n :=
  Vector.ofFn fun i => (gs[i.val]?).getD v[i]

/-- The events of those writes: one for each slot of the field. -/
def fillEvents (field : Field) (n : Nat) (gs : List Byte) : List Event :=
  (gs.take n).mapIdx fun j g => .latchWrite field (j + 1) g

section
variable {n : Nat} {v : Vector Byte n} {gs : List Byte}

theorem filled_nil (v : Vector Byte n) : filled v [] = v := by
  ext i hi
  simp [filled]

theorem filled_concat_of_lt (g : Byte) (h : gs.length < n) :
    filled v (gs ++ [g]) = (filled v gs).set gs.length g := by
  refine Vector.ext fun i hi => ?_
  rcases Nat.lt_trichotomy i gs.length with hlt | rfl | hgt
  · simp [filled, hlt, Nat.ne_of_gt hlt, List.getElem?_append]
  · simp [filled]
  · simp [filled, List.getElem?_append, Nat.not_lt.mpr hgt.le, Nat.ne_of_lt hgt, Nat.sub_ne_zero_of_lt hgt]

theorem filled_concat_of_ge (g : Byte) (h : n ≤ gs.length) : filled v (gs ++ [g]) = filled v gs := by
  refine Vector.ext fun i hi => ?_
  simp [filled, List.getElem?_append, hi.trans_le h]

theorem fillEvents_concat_of_lt (field : Field) (g : Byte) (h : gs.length < n) :
    fillEvents field n (gs ++ [g]) = fillEvents field n gs ++ [.latchWrite field (gs.length + 1) g] := by
  rw [fillEvents, fillEvents, List.take_of_length_le (by simp; omega), List.take_of_length_le h.le, List.mapIdx_concat]

theorem fillEvents_concat_of_ge (field : Field) (g : Byte) (h : n ≤ gs.length) :
    fillEvents field n (gs ++ [g]) = fillEvents field n gs := by
  rw [fillEvents, fillEvents, List.take_append_of_le_length h]

end

/-- A run of two parts, from the runs of both. -/
theorem runAll_append_of_runs {pre post : List Instr} {s t u : State} {rs rs' : List Returned}
    (hpre : runAll pre s = some (rs, t)) (hpost : runAll post t = some (rs', u)) :
    runAll (pre ++ post) s = some (rs ++ rs', u) := by
  induction pre generalizing s rs with
  | nil =>
    cases hpre
    exact hpost
  | cons i pre ih =>
    obtain ⟨v, hv⟩ := exec_next_of_runAll_cons hpre
    rw [runAll_cons_of_next hv, Option.map_eq_some_iff] at hpre
    obtain ⟨⟨rs₀, t₀⟩, hrun, hp⟩ := hpre
    obtain ⟨rfl, rfl⟩ := Prod.mk.inj hp
    rw [List.cons_append, runAll_cons_of_next hv, ih hrun, Option.map_some]
    cases i.returnsValue <;> rfl

/-- A run of one transaction that returns no value. -/
theorem runAll_singleton {i : Instr} {s t : State} (h : exec i s = .next t) (hret : i.returnsValue = false) :
    runAll [i] s = some ([], t) := by
  rw [runAll_cons_of_next h, runAll_nil, hret]
  rfl

/-- The glyphs of a list of data writes. -/
def glyphsOf (ws : List (Half × Byte)) : List Byte := ws.map fun w => glyph w.2

@[simp] theorem glyphsOf_length (ws : List (Half × Byte)) : (glyphsOf ws).length = ws.length := List.length_map _

theorem glyphsOf_concat (ws : List (Half × Byte)) (w : Half × Byte) :
    glyphsOf (ws ++ [w]) = glyphsOf ws ++ [glyph w.2] :=
  List.map_append

/-- The state after address-field writes of the glyphs `gs` from counter 1 (R109). -/
def addrFilled (s : State) (gs : List Byte) : State :=
  { s with
    dkc := { s.dkc with addr := filled s.dkc.addr gs, fseq := gs.length + 1 }
    events := s.events ++ fillEvents .addr 4 gs }

/-- The state after data-field writes of the glyphs `gs` from counter 1 (R109). -/
def dataFilled (s : State) (gs : List Byte) : State :=
  { s with
    dkc := { s.dkc with data := filled s.dkc.data gs, fseq := gs.length + 1 }
    events := s.events ++ fillEvents .data 2 gs }

theorem addrFilled_nil {s : State} (h : s.dkc.fseq = 1) : addrFilled s [] = s := by
  simp [addrFilled, fillEvents, filled_nil, ← h]

theorem dataFilled_nil {s : State} (h : s.dkc.fseq = 1) : dataFilled s [] = s := by
  simp [dataFilled, fillEvents, filled_nil, ← h]

/-- One more write of the address field (R104). -/
theorem fillAddr_addrFilled (v : Byte) (s : State) (gs : List Byte) :
    fillAddr v (addrFilled s gs) = addrFilled s (gs ++ [glyph v]) := by
  by_cases h : gs.length < 4
  · rw [fillAddr_inRange v _ ⟨gs.length, h⟩ rfl]
    simp [addrFilled, filled_concat_of_lt _ h, fillEvents_concat_of_lt _ _ h]
  · have hge : 4 ≤ gs.length := Nat.not_lt.mp h
    rw [fillAddr_outOfRange v _ (.inr (Nat.succ_le_succ hge))]
    simp [addrFilled, filled_concat_of_ge _ hge, fillEvents_concat_of_ge _ _ hge]

/-- One more write of the data field (R104). -/
theorem fillData_dataFilled (v : Byte) (s : State) (gs : List Byte) :
    fillData v (dataFilled s gs) = dataFilled s (gs ++ [glyph v]) := by
  by_cases h : gs.length < 2
  · rw [fillData_inRange v _ ⟨gs.length, h⟩ rfl]
    simp [dataFilled, filled_concat_of_lt _ h, fillEvents_concat_of_lt _ _ h]
  · have hge : 2 ≤ gs.length := Nat.not_lt.mp h
    rw [fillData_outOfRange v _ (.inr (Nat.succ_le_succ hge))]
    simp [dataFilled, filled_concat_of_ge _ hge, fillEvents_concat_of_ge _ _ hge]

/-- Data writes one after another, where each of them fills the field `f` describes. -/
theorem runAll_dataWrites (ws : List (Half × Byte)) {s : State} (f : List Byte → State) (hnil : f [] = s)
    (hwrite : ∀ v gs, displayWrite v (f gs) = f (gs ++ [glyph v])) :
    runAll (ws.map fun w => .dkcWrDisp w.1 w.2) s = some ([], f (glyphsOf ws)) := by
  induction ws using List.reverseRecOn with
  | nil => exact congrArg (fun t => some ([], t)) hnil.symm
  | append_singleton ws w ih =>
    rw [List.map_append, glyphsOf_concat]
    exact runAll_append_of_runs ih (runAll_singleton (congrArg Host.Outcome.next (hwrite w.2 _)) rfl)

theorem fillEvents_glyphsOf (field : Field) (n : Nat) (ws : List (Half × Byte)) :
    fillEvents field n (glyphsOf ws) = (ws.take n).mapIdx fun j w => .latchWrite field (j + 1) (glyph w.2) := by
  rw [fillEvents, glyphsOf, ← List.map_take]
  exact List.ext_getElem (by simp) fun j hj hj' => by simp

/-- Settles O9: the control write leaves counter 1, and each data write adds its glyph. -/
theorem addressFillSequence : Obligations.AddressFillSequence := by
  intro a ws s
  rw [runAll_cons_of_next (exec_dkcWrCtrl a cmdFillAddr s),
    runAll_dataWrites ws (addrFilled _) (addrFilled_nil rfl) fun v gs =>
      (displayWrite_of_cmdFillAddr v rfl).trans (fillAddr_addrFilled v _ gs)]
  refine ⟨_, rfl, fun i => ?_, ?_, ?_⟩
  · simp [addrFilled, filled, glyphsOf]
  · simp [addrFilled, fillEvents_glyphsOf]
  · simp [addrFilled]

/-- Settles O10: the same of the data field, whose command is not the address field's. -/
theorem dataFillSequence : Obligations.DataFillSequence := by
  intro a ws s hne
  rw [runAll_cons_of_next (exec_dkcWrCtrl a s.cfg.cmdFillData s),
    runAll_dataWrites ws (dataFilled _) (dataFilled_nil rfl) fun v gs =>
      (displayWrite_of_cmdFillData v hne rfl).trans (fillData_dataFilled v _ gs)]
  refine ⟨_, rfl, fun i => ?_, ?_, ?_⟩
  · simp [dataFilled, filled, glyphsOf]
  · simp [dataFilled, fillEvents_glyphsOf]
  · simp [dataFilled]

/-! The latches that no transaction reads back -/

/-- The state with other display latches. -/
def State.withLatches (s : State) (addr : Vector Byte 4) (data : Vector Byte 2) : State :=
  { s with dkc := { s.dkc with addr := addr, data := data } }

@[simp] theorem State.withLatches_tic (s : State) (addr : Vector Byte 4) (data : Vector Byte 2) :
    (s.withLatches addr data).tic = s.tic := rfl

theorem sameButLatches_iff {s t : State} : s.sameButLatches t ↔ ∃ addr data, t = s.withLatches addr data := by
  constructor
  · intro h
    exact ⟨_, _, h.symm⟩
  · rintro ⟨addr, data, rfl⟩
    rfl

section
variable (s : State) (addr : Vector Byte 4) (data : Vector Byte 2)

theorem displayWrite_withLatches (v : Byte) :
    ∃ addr' data', displayWrite v (s.withLatches addr data) = (displayWrite v s).withLatches addr' data' := by
  by_cases haddr : s.dkc.ctrl = cmdFillAddr
  · rw [displayWrite_of_cmdFillAddr v haddr, displayWrite_of_cmdFillAddr (s := s.withLatches addr data) v haddr]
    by_cases h : 1 ≤ s.dkc.fseq ∧ s.dkc.fseq ≤ 4
    · have slot : s.dkc.fseq = (⟨s.dkc.fseq - 1, by omega⟩ : Fin 4) + 1 := by simp; omega
      rw [fillAddr_inRange v s _ slot, fillAddr_inRange v (s.withLatches addr data) _ slot]
      exact ⟨_, data, rfl⟩
    · rw [fillAddr_outOfRange v s (by omega), fillAddr_outOfRange v (s.withLatches addr data)]
      · exact ⟨addr, data, rfl⟩
      · change s.dkc.fseq = 0 ∨ 5 ≤ s.dkc.fseq
        omega
  · by_cases hdata : s.dkc.ctrl = s.cfg.cmdFillData
    · rw [displayWrite_of_cmdFillData v haddr hdata,
        displayWrite_of_cmdFillData (s := s.withLatches addr data) v haddr hdata]
      by_cases h : 1 ≤ s.dkc.fseq ∧ s.dkc.fseq ≤ 2
      · have slot : s.dkc.fseq = (⟨s.dkc.fseq - 1, by omega⟩ : Fin 2) + 1 := by simp; omega
        rw [fillData_inRange v s _ slot, fillData_inRange v (s.withLatches addr data) _ slot]
        exact ⟨addr, _, rfl⟩
      · rw [fillData_outOfRange v s (by omega), fillData_outOfRange v (s.withLatches addr data)]
        · exact ⟨addr, data, rfl⟩
        · change s.dkc.fseq = 0 ∨ 3 ≤ s.dkc.fseq
          omega
    · rw [displayWrite_of_no_command v haddr hdata,
        displayWrite_of_no_command (s := s.withLatches addr data) v haddr hdata]
      exact ⟨addr, data, rfl⟩

theorem serialRead_withLatches : serialRead (s.withLatches addr data) = (serialRead s).withLatches addr data := by
  rcases serialRead_cases s with ⟨h, e⟩ | ⟨h, h', e⟩ | ⟨h, h', e⟩ <;> rw [e]
  · simp only [serialRead, State.withLatches_tic, h]
    rfl
  · simp only [serialRead, State.withLatches_tic, h, h']
    rfl
  · simp only [serialRead, State.withLatches_tic, h, h']
    rfl

theorem serialWrite_withLatches (v : Byte) :
    serialWrite v (s.withLatches addr data) = (serialWrite v s).withLatches addr data := by
  rcases serialWrite_cases v s with ⟨h, e⟩ | ⟨h, e⟩ <;> rw [e]
  · rcases serialWrite_cases v (s.withLatches addr data) with ⟨-, e'⟩ | ⟨h', -⟩
    · exact e'
    · exact absurd h' h
  · rcases serialWrite_cases v (s.withLatches addr data) with ⟨h', -⟩ | ⟨-, e'⟩
    · exact absurd h h'
    · exact e'

theorem unassignedPortWrite_withLatches (a : Half) (v : Byte) :
    unassignedPortWrite a v (s.withLatches addr data) = (unassignedPortWrite a v s).withLatches addr data := by
  rcases unassignedPortWrite_cases a v s with ⟨h, e⟩ | ⟨h, e⟩ <;> rw [e]
  · exact if_neg h
  · exact if_pos h

end

/-- A transaction of a state with other latches differs in the latches alone. -/
theorem exec_withLatches {i : Instr} {s s' : State} (addr : Vector Byte 4) (data : Vector Byte 2)
    (h : exec i s = .next s') :
    ∃ addr' data', exec i (s.withLatches addr data) = .next (s'.withLatches addr' data') := by
  cases i
  case dkcRdKey a =>
    rw [exec_dkcRdKey] at h ⊢
    cases h
    exact ⟨addr, data, rfl⟩
  case dkcWrDisp a v =>
    obtain rfl := Host.Outcome.next.inj h
    obtain ⟨addr', data', e⟩ := displayWrite_withLatches s addr data v
    exact ⟨addr', data', congrArg Host.Outcome.next e⟩
  case dkcBanner =>
    obtain rfl := Host.Outcome.next.inj h
    exact ⟨s.cfg.bannerAddr, s.cfg.bannerData, congrArg Host.Outcome.next (by simp only [writeBanner_eq]; rfl)⟩
  case ticRdSer a =>
    obtain rfl := Host.Outcome.next.inj h
    exact ⟨addr, data, congrArg Host.Outcome.next (serialRead_withLatches s addr data)⟩
  case ticWrSerOn a v =>
    obtain rfl := Host.Outcome.next.inj h
    exact ⟨addr, data, congrArg Host.Outcome.next (serialWrite_withLatches s addr data v)⟩
  case ticWrNone a v =>
    obtain rfl := Host.Outcome.next.inj h
    exact ⟨addr, data, congrArg Host.Outcome.next (unassignedPortWrite_withLatches s addr data a v)⟩
  case dkcPowerOn =>
    obtain ⟨hstop, rfl⟩ := whenStopped_next h
    exact ⟨Dkc.powerOn.addr, Dkc.powerOn.data, if_pos hstop⟩
  case dkcReset | ticReset | ticPowerOn =>
    obtain ⟨hstop, rfl⟩ := whenStopped_next h
    exact ⟨addr, data, if_pos hstop⟩
  case drvStart =>
    obtain ⟨hstop, hfit, rfl⟩ := execDrvStart_next h
    exact ⟨addr, data, execDrvStart_of_stopped ((Driver.stopped_iff _).mp hstop) hfit⟩
  all_goals
    cases h
    exact ⟨addr, data, rfl⟩

/-- Settles O11: the other state is the same one with other latches, and so is the state after it. -/
theorem noTransactionReadsTheLatches : Obligations.NoTransactionReadsTheLatches := by
  intro i s t s' hst h
  obtain ⟨addr, data, rfl⟩ := sameButLatches_iff.mp hst
  obtain ⟨addr', data', h'⟩ := exec_withLatches addr data h
  exact ⟨_, h', sameButLatches_iff.mpr ⟨addr', data', rfl⟩⟩

end Sys2Proof.Machine
end

section
/-! The timer's ticks (O15, O16): the decrement loop in closed form, and the first elapsed of a fresh start. -/

namespace Sys2Proof.Machine

/-! The decrement loop -/

/-- The unit that exhausts the count leaves nothing of it. -/
theorem Tic.exhaust_count (t : Tic) (c : Half) : { t with count := c }.exhaust = t.exhaust := by
  unfold Tic.exhaust
  split_ifs <;> rfl

/-- Fewer units than the count are subtracted from it, and none from a count of 0 or 1 (R128). -/
theorem Tic.countDown_of_lt {n : Nat} {t : Tic} (h : n < max t.count.toNat 1) :
    t.countDown n = (false, { t with count := t.count - BitVec.ofNat 16 n }) := by
  induction n generalizing t with
  | zero => simp [Tic.countDown]
  | succ n ih =>
    have hcount : ¬ t.count.toNat ≤ 1 := by omega
    have hless : (t.count - 1).toNat = t.count.toNat - 1 := by bv_omega
    have hsub : t.count - 1 - BitVec.ofNat 16 n = t.count - BitVec.ofNat 16 (n + 1) := by bv_omega
    rw [Tic.countDown, if_neg hcount, ih (by simp only [hless]; omega), ← hsub]

/-- As many units as the count, and at least one, exhaust it (R127, D12). -/
theorem Tic.countDown_of_ge {n : Nat} {t : Tic} (h : max t.count.toNat 1 ≤ n) :
    t.countDown n = (true, t.exhaust) := by
  induction n generalizing t with
  | zero => omega
  | succ n ih =>
    rw [Tic.countDown]
    by_cases hcount : t.count.toNat ≤ 1
    · rw [if_pos hcount]
    · have hless : (t.count - 1).toNat = t.count.toNat - 1 := by bv_omega
      rw [if_neg hcount, ih (by simp only [hless]; omega), Tic.exhaust_count]

/-! One tick -/

theorem Tic.tick_of_running (n : Nat) {t : Tic} (h : t.tstate = .started ∨ t.tstate = .pending) :
    t.tick n = t.countDown n := by
  rcases h with h | h <;> rw [Tic.tick, h]

theorem Tic.tick_of_not_running (n : Nat) {t : Tic} (h : t.tstate ≠ .started ∧ t.tstate ≠ .pending) :
    t.tick n = (false, t) := by
  unfold Tic.tick
  cases hx : t.tstate with
  | started => exact absurd hx h.1
  | pending => exact absurd hx h.2
  | stopped => rfl
  | abort => rfl

/-- A tick that does not exhaust the count of a running timer. -/
theorem exec_ticTick_of_lt {n : Half} {s : State} (h : s.tic.tstate = .started ∨ s.tic.tstate = .pending)
    (hlt : n.toNat < max s.tic.count.toNat 1) :
    exec (.ticTick n) s = .next { s with tic := { s.tic with count := s.tic.count - n }, ret := .flag false } := by
  rw [exec_ticTick, tickTimer_eq, Tic.tick_of_running _ h, Tic.countDown_of_lt hlt, BitVec.ofNat_toNat,
    BitVec.setWidth_eq]

/-- A tick that exhausts the count of a running timer. -/
theorem exec_ticTick_of_ge {n : Half} {s : State} (h : s.tic.tstate = .started ∨ s.tic.tstate = .pending)
    (hge : max s.tic.count.toNat 1 ≤ n.toNat) :
    exec (.ticTick n) s = .next { s with tic := s.tic.exhaust, ret := .flag true } := by
  rw [exec_ticTick, tickTimer_eq, Tic.tick_of_running _ h, Tic.countDown_of_ge hge]

/-- Settles O15: no unit, fewer units than the count, or enough, for the two states that count. -/
theorem tickClosedForm : Obligations.TickClosedForm := by
  intro n s
  split_ifs with hidle hlt hstart
  · rw [exec_ticTick, tickTimer_eq]
    rcases hidle with hidle | rfl
    · rw [Tic.tick_of_not_running _ hidle]
    · unfold Tic.tick
      cases s.tic.tstate <;> rfl
  · exact exec_ticTick_of_lt (by tauto) hlt
  · rw [exec_ticTick_of_ge (.inl hstart) (Nat.not_lt.mp hlt), Tic.exhaust, if_pos hstart]
    rfl
  · rw [exec_ticTick_of_ge (by tauto) (Nat.not_lt.mp hlt), Tic.exhaust, if_neg hstart]

/-! A run of ticks -/

/-- Ticks of a started timer: those that stay below the count report nothing, and the one that reaches it reports. -/
theorem runAll_ticks (ns : List Half) {n : Half} {s : State} (hstart : s.tic.tstate = .started)
    (hlt : (ns.map (·.toNat)).sum < s.tic.count.toNat) (hge : s.tic.count.toNat ≤ (ns.map (·.toNat)).sum + n.toNat) :
    runAll (ns.map Instr.ticTick ++ [Instr.ticTick n]) s =
      some (ns.map (fun _ => Returned.flag false) ++ [Returned.flag true],
        { s with tic := { s.tic with count := s.tic.period }, ret := .flag true }) := by
  induction ns generalizing s with
  | nil =>
    simp only [List.map_nil, List.sum_nil] at hlt hge
    have hlast := exec_ticTick_of_ge (n := n) (.inl hstart) (by omega)
    rw [Tic.exhaust, if_pos hstart] at hlast
    rw [List.map_nil, List.nil_append, runAll_cons_of_next hlast]
    rfl
  | cons m ns ih =>
    simp only [List.map_cons, List.sum_cons] at hlt hge
    have hleft : (s.tic.count - m).toNat = s.tic.count.toNat - m.toNat :=
      BitVec.toNat_sub_of_le (BitVec.le_def.mpr (by omega))
    rw [List.map_cons, List.cons_append,
      runAll_cons_of_next (exec_ticTick_of_lt (n := m) (.inl hstart) (by omega)), ih]
    · rfl
    · exact hstart
    · simp only [hleft]
      omega
    · simp only [hleft]
      omega

/-- Settles O16: the run of ticks from a count that is the period. -/
theorem firstElapsedComesWhenTheSumReachesThePeriod : Obligations.FirstElapsedComesWhenTheSumReachesThePeriod := by
  intro ns n s hstart hcount _ hlt hge
  rw [runAll_ticks ns hstart (hcount ▸ hlt) (hcount ▸ hge), ← hcount]

end Sys2Proof.Machine
end

section
/-! The Boolean latches over all transactions (O22, O23): what each transaction leaves of them, and a pending NMI over a
run. -/

namespace Sys2Proof.Machine

/-- A latch after a transaction: its set raises it, and its take and the two resets of the TIC clear it
(42_interrupt_latches.md section 3). -/
def latchAfter (set take i : Instr) (b : Bool) : Bool :=
  if i = set then true else if i = take ∨ i = .ticReset ∨ i = .ticPowerOn then false else b

section
variable {set take i : Instr} {b : Bool}

theorem latchAfter_of_ne (hset : i ≠ set) (htake : i ≠ take) (hreset : i ≠ .ticReset) (hpower : i ≠ .ticPowerOn) :
    latchAfter set take i b = b := by
  rw [latchAfter, if_neg hset, if_neg (by simp [htake, hreset, hpower])]

theorem eq_of_latchAfter_raised (hb : b = false) (h : latchAfter set take i b = true) : i = set := by
  by_contra hne
  rw [latchAfter, if_neg hne, hb, ite_self] at h
  cases h

theorem eq_of_latchAfter_cleared (hb : b = true) (h : latchAfter set take i b = false) :
    i = take ∨ i = .ticReset ∨ i = .ticPowerOn := by
  by_contra hne
  rw [latchAfter, if_neg hne, hb, ite_self] at h
  cases h

theorem latchAfter_eq_true_of_pending (h : i = set ∨ b = true)
    (hi : i ≠ take ∧ i ≠ .ticReset ∧ i ≠ .ticPowerOn) : latchAfter set take i b = true := by
  by_cases hset : i = set
  · rw [latchAfter, if_pos hset]
  · rw [latchAfter_of_ne hset hi.1 hi.2.1 hi.2.2]
    exact h.resolve_left hset

end

/-- The three latches after a transaction. -/
structure LatchesAfter (i : Instr) (t t' : Tic) : Prop where
  nmi : t'.nmi = latchAfter .ticSetNmi .ticTakeNmi i t.nmi
  intr : t'.intr = latchAfter .ticSetInt .ticTakeInt i t.intr
  rstreq : t'.rstreq = latchAfter .ticReqReset .ticTakeReset i t.rstreq

/-- The transactions that write a Boolean latch. -/
def latchRows : List Instr :=
  [.ticSetNmi, .ticSetInt, .ticReqReset, .ticTakeNmi, .ticTakeInt, .ticTakeReset, .ticReset, .ticPowerOn]

/-- The TIC's latches and its transcript as they were. -/
structure KeepsLatchesAndTranscript (t t' : Tic) : Prop where
  nmi : t'.nmi = t.nmi
  intr : t'.intr = t.intr
  rstreq : t'.rstreq = t.rstreq
  transcript : t'.transcript = t.transcript

/-- No transaction but those and the enabled serial write touches them: not the timer's commands nor its ticks. -/
theorem exec_keepsLatchesAndTranscript {i : Instr} {s t : State} (hi : i ∉ latchRows)
    (hser : ∀ a v, i ≠ .ticWrSerOn a v) (h : exec i s = .next t) : KeepsLatchesAndTranscript s.tic t.tic := by
  by_cases hunit : wordUnit (encode i) = 1
  case neg =>
    obtain ⟨-, htic, -⟩ := transactionsTouchOnlyTheirUnit i s t h
    rw [htic hunit]
    exact ⟨rfl, rfl, rfl, rfl⟩
  cases i <;> simp only [encode, Laws.wordUnit_busWord, Laws.wordUnit_opWord] at hunit
  case ticTick n =>
    obtain rfl := Host.Outcome.next.inj h
    obtain ⟨c, x, e⟩ := tick_frame n.toNat s.tic
    rw [tickTimer_eq, e]
    exact ⟨rfl, rfl, rfl, rfl⟩
  case ticRdSer a =>
    obtain rfl := Host.Outcome.next.inj h
    obtain ⟨_, _, _, _, e⟩ := serialRead_frame s
    rw [e]
    exact ⟨rfl, rfl, rfl, rfl⟩
  case ticWrSerOn a v => exact absurd rfl (hser a v)
  case ticWrNone a v =>
    obtain rfl := Host.Outcome.next.inj h
    obtain ⟨_, e⟩ := unassignedPortWrite_frame a v s
    rw [e]
    exact ⟨rfl, rfl, rfl, rfl⟩
  case ticWrCmdNop | ticWrCmdAbort | ticWrCmdPend | ticWrCmdStart | ticWrPlo | ticWrPhi | ticWrSerOff | ticRdNone
    | ticTakeData | ticSetSid | ticSetData =>
    cases h
    exact ⟨rfl, rfl, rfl, rfl⟩
  case ticSetNmi | ticSetInt | ticReqReset | ticTakeNmi | ticTakeInt | ticTakeReset | ticReset | ticPowerOn =>
    exact absurd (by decide) hi
  all_goals exact absurd hunit (by decide)

/-- The serial port never moves a Boolean latch. -/
theorem exec_keeps_latches {i : Instr} {s t : State} (hi : i ∉ latchRows) (h : exec i s = .next t) :
    t.tic.nmi = s.tic.nmi ∧ t.tic.intr = s.tic.intr ∧ t.tic.rstreq = s.tic.rstreq := by
  by_cases hser : ∃ a v, i = .ticWrSerOn a v
  · obtain ⟨a, v, rfl⟩ := hser
    obtain rfl := Host.Outcome.next.inj h
    rcases serialWrite_cases v s with ⟨-, e⟩ | ⟨-, e⟩ <;> rw [e] <;> exact ⟨rfl, rfl, rfl⟩
  · obtain ⟨hnmi, hintr, hrst, -⟩ := exec_keepsLatchesAndTranscript hi (fun a v e => hser ⟨a, v, e⟩) h
    exact ⟨hnmi, hintr, hrst⟩

/-- The three latches after any transaction. -/
theorem exec_latchesAfter {i : Instr} {s t : State} (h : exec i s = .next t) : LatchesAfter i s.tic t.tic := by
  by_cases hi : i ∈ latchRows
  · cases i
    case ticSetNmi | ticSetInt | ticReqReset | ticTakeNmi | ticTakeInt | ticTakeReset =>
      cases h
      exact ⟨rfl, rfl, rfl⟩
    case ticReset | ticPowerOn =>
      obtain ⟨-, rfl⟩ := whenStopped_next h
      exact ⟨rfl, rfl, rfl⟩
    all_goals exact absurd hi (by simp [latchRows])
  · obtain ⟨hnmi, hintr, hrst⟩ := exec_keeps_latches hi h
    simp only [latchRows, List.mem_cons, List.not_mem_nil, or_false, not_or] at hi
    obtain ⟨h1, h2, h3, h4, h5, h6, h7, h8⟩ := hi
    exact ⟨hnmi.trans (latchAfter_of_ne h1 h4 h7 h8).symm, hintr.trans (latchAfter_of_ne h2 h5 h7 h8).symm,
      hrst.trans (latchAfter_of_ne h3 h6 h7 h8).symm⟩

/-- Settles O22: a latch that changed is one that its own transactions change. -/
theorem onlyTheirOwnTransactionsMoveTheLatches : Obligations.OnlyTheirOwnTransactionsMoveTheLatches := by
  intro i s t h
  obtain ⟨hnmi, hintr, hrst⟩ := exec_latchesAfter h
  rw [hnmi, hintr, hrst]
  exact ⟨eq_of_latchAfter_raised, eq_of_latchAfter_cleared, eq_of_latchAfter_raised, eq_of_latchAfter_cleared,
    eq_of_latchAfter_raised, eq_of_latchAfter_cleared⟩

/-- A set of NMI, or one that is pending, stays pending over a run without a take and without a reset of the TIC. -/
theorem runAll_nmi_pending {is : List Instr} {s t : State} {rs : List Returned}
    (hset : Instr.ticSetNmi ∈ is ∨ s.tic.nmi = true)
    (his : ∀ i ∈ is, i ≠ .ticTakeNmi ∧ i ≠ .ticReset ∧ i ≠ .ticPowerOn) (h : runAll is s = some (rs, t)) :
    t.tic.nmi = true := by
  induction is generalizing s rs with
  | nil =>
    cases h
    exact hset.resolve_left List.not_mem_nil
  | cons i is ih =>
    obtain ⟨u, hu⟩ := exec_next_of_runAll_cons h
    obtain ⟨hi, htail⟩ := List.forall_mem_cons.mp his
    rw [runAll_cons_of_next hu, Option.map_eq_some_iff] at h
    obtain ⟨⟨rs', t'⟩, hrun, hp⟩ := h
    obtain ⟨rfl, rfl⟩ := Prod.mk.inj hp
    refine ih ?_ htail hrun
    rw [List.mem_cons] at hset
    rw [(exec_latchesAfter hu).nmi]
    rcases hset with (heq | hmem) | hnmi
    · exact .inr (latchAfter_eq_true_of_pending (.inl heq.symm) hi)
    · exact .inl hmem
    · exact .inr (latchAfter_eq_true_of_pending (.inr hnmi) hi)

/-- Settles O23: the first take finds the latch set, and the second finds what the first left. -/
theorem pendingNmisMergeIntoOne : Obligations.PendingNmisMergeIntoOne := by
  intro is s t rs hset his h
  have hnmi := runAll_nmi_pending (.inl hset) his h
  rw [runAll_cons_of_next (exec_ticTakeNmi t), runAll_cons_of_next (exec_ticTakeNmi _), hnmi]
  rfl

end Sys2Proof.Machine
end

section
/-! The serial line (O24, O26, O27, O29 to O31): each case of a read and of an enabled write, the frames they make up,
and the transcript over all transactions. -/

namespace Sys2Proof.Machine

/-! One read -/

/-- The first slot of a frame returns 0 (R161, D16). -/
theorem serialShiftIn_zero (b : Byte) : serialShiftIn b 0 = 0x00 := by
  have hbit : ((b.setWidth 16 <<< 8) >>> 0).getLsbD 7 = false := by simp
  have hmask : ((b.setWidth 16 <<< 8) >>> 0) &&& 0x80#16 =
      if ((b.setWidth 16 <<< 8) >>> 0).getLsbD 7 then 0x80#16 else 0#16 := BitVec.and_twoPow _ 7
  rw [serialShiftIn, hmask, hbit]
  rfl

/-- Slot k + 1 of a frame returns bit k of the byte, in place at bit 7 (R161, D16). -/
theorem serialShiftIn_succ (b : Byte) {k : Nat} (hk : k < 7) :
    serialShiftIn b (k + 1) = if b.getLsbD k then 0x80 else 0x00 := by
  have hbit : ((b.setWidth 16 <<< 8) >>> (k + 1)).getLsbD 7 = b.getLsbD k := by
    interval_cases k <;> simp
  have hmask : ((b.setWidth 16 <<< 8) >>> (k + 1)) &&& 0x80#16 =
      if ((b.setWidth 16 <<< 8) >>> (k + 1)).getLsbD 7 then 0x80#16 else 0#16 := BitVec.and_twoPow _ 7
  rw [serialShiftIn, hmask, hbit]
  cases b.getLsbD k <;> rfl

theorem Tic.shiftIn_of_lt {t : Tic} (h : t.inputBitsConsumed.val < 7) :
    t.shiftIn = { t with inputBitsConsumed := ⟨t.inputBitsConsumed.val + 1, by omega⟩ } := by
  rcases t.shiftIn_cases with ⟨h7, -⟩ | ⟨-, e⟩
  · rw [h7] at h
    exact absurd h (by decide)
  · rw [e]
    congr 1
    exact Fin.ext (Fin.val_add_one_of_lt' (by omega))

/-- The connect edge (R160, R161). -/
theorem exec_ticRdSer_edge (a : Half) {s : State} (h : s.tic.ttyConnected = s.tic.inputByte.getLsbD 7) :
    exec (.ticRdSer a) s =
      .next { s with tic := { s.tic with ttyConnected := !s.tic.ttyConnected }, ret := .byte 0x00 } := by
  rw [exec_ticRdSer, serialRead, if_pos (by simp [Tic.edge, Tic.inputTop, h])]
  rfl

/-- The idle line (R161). -/
theorem exec_ticRdSer_idle (a : Half) {s : State} (hc : s.tic.ttyConnected = false)
    (hb : s.tic.inputByte.getLsbD 7 = true) : exec (.ticRdSer a) s = .next { s with ret := .byte 0x80 } := by
  rw [exec_ticRdSer, serialRead, if_neg (by simp only [Tic.edge, Tic.inputTop, hc, hb]; decide),
    if_pos (by simp only [Tic.inputTop, hb])]
  rfl

/-- A shifted slot (R161). -/
theorem exec_ticRdSer_shift (a : Half) {s : State} (hc : s.tic.ttyConnected = true)
    (hb : s.tic.inputByte.getLsbD 7 = false) :
    exec (.ticRdSer a) s = .next { s with
      tic := s.tic.shiftIn, ret := .byte (serialShiftIn s.tic.inputByte s.tic.inputBitsConsumed) } := by
  rw [exec_ticRdSer, serialRead, if_neg (by simp only [Tic.edge, Tic.inputTop, hc, hb]; decide),
    if_neg (by simp only [Tic.inputTop, hb]; decide)]
  rfl

/-- What the slot after bit `k` of the byte returns (R161). -/
def slotValue (b : Byte) (k : Nat) : Returned := .byte (if b.getLsbD k then 0x80 else 0x00)

/-- Slot k + 1 of a frame, before the last. -/
theorem exec_ticRdSer_slot (a : Half) {s : State} (hc : s.tic.ttyConnected = true)
    (hb : s.tic.inputByte.getLsbD 7 = false) {k : Nat} (hk : k < 6) (hbits : s.tic.inputBitsConsumed.val = k + 1) :
    exec (.ticRdSer a) s = .next { s with
      tic := { s.tic with inputBitsConsumed := ⟨k + 2, by omega⟩ }, ret := slotValue s.tic.inputByte k } := by
  rw [exec_ticRdSer_shift a hc hb, Tic.shiftIn_of_lt (by omega)]
  simp only [hbits, serialShiftIn_succ _ (show k < 7 by omega)]
  rfl

/-- The last slot of a frame. -/
theorem exec_ticRdSer_last (a : Half) {s : State} (hc : s.tic.ttyConnected = true)
    (hb : s.tic.inputByte.getLsbD 7 = false) (hbits : s.tic.inputBitsConsumed = 7) :
    exec (.ticRdSer a) s = .next { s with
      tic := { s.tic with inputBitsConsumed := 0, inputByte := s.tic.inputByte ||| 0x80 },
      ret := slotValue s.tic.inputByte 6 } := by
  have hslot : serialShiftIn s.tic.inputByte (7 : Fin 8).val = if s.tic.inputByte.getLsbD 6 then 0x80 else 0x00 :=
    serialShiftIn_succ _ (by decide)
  rw [exec_ticRdSer_shift a hc hb, hbits, hslot]
  rcases s.tic.shiftIn_cases with ⟨-, e⟩ | ⟨hne, -⟩
  · rw [e]
    rfl
  · exact absurd hbits hne

/-- The first slot of a frame. -/
theorem exec_ticRdSer_first (a : Half) {s : State} (hc : s.tic.ttyConnected = true)
    (hb : s.tic.inputByte.getLsbD 7 = false) (hbits : s.tic.inputBitsConsumed = 0) :
    exec (.ticRdSer a) s =
      .next { s with tic := { s.tic with inputBitsConsumed := 1 }, ret := .byte 0x00 } := by
  have hslot : serialShiftIn s.tic.inputByte (0 : Fin 8).val = 0x00 := serialShiftIn_zero _
  rw [exec_ticRdSer_shift a hc hb, Tic.shiftIn_of_lt (by rw [hbits]; decide)]
  simp only [hbits, hslot]
  rfl

/-- Settles O24: the edge, the idle line, and the slots of a frame. -/
theorem serialReadReturnsTheNextBit : Obligations.SerialReadReturnsTheNextBit :=
  fun a _ => ⟨exec_ticRdSer_edge a, exec_ticRdSer_idle a, exec_ticRdSer_first a,
    fun hc hb k hbits => exec_ticRdSer_slot a hc hb k.isLt hbits, exec_ticRdSer_last a⟩

/-! Input frames -/

/-- A run of one transaction that returns a value. -/
theorem runAll_singleton_returning {i : Instr} {s t : State} (h : exec i s = .next t) (hret : i.returnsValue = true) :
    runAll [i] s = some ([t.ret], t) := by
  rw [runAll_cons_of_next h, runAll_nil, hret]
  rfl

/-- The idle line stays idle. -/
theorem runAll_idle (a : Half) (m : Nat) {s : State} (hc : s.tic.ttyConnected = false)
    (hb : s.tic.inputByte.getLsbD 7 = true) :
    runAll (List.replicate (m + 1) (.ticRdSer a)) s =
      some (List.replicate (m + 1) (.byte 0x80), { s with ret := .byte 0x80 }) := by
  have hread := exec_ticRdSer_idle a hc hb
  induction m generalizing s with
  | zero => exact runAll_singleton_returning hread rfl
  | succ m ih =>
    have hrest := ih (s := { s with ret := .byte 0x80 }) hc hb (exec_ticRdSer_idle a hc hb)
    rw [List.replicate_succ, runAll_cons_of_next hread, hrest]
    rfl

/-- The slots after the first one, before the last. -/
theorem runAll_slots (a : Half) {j : Nat} (hj : j ≤ 6) {s : State} (hc : s.tic.ttyConnected = true)
    (hb : s.tic.inputByte.getLsbD 7 = false) (hbits : s.tic.inputBitsConsumed = 1) :
    ∃ r, runAll (List.replicate j (.ticRdSer a)) s = some ((List.range j).map (slotValue s.tic.inputByte),
      { s with tic := { s.tic with inputBitsConsumed := ⟨j + 1, by omega⟩ }, ret := r }) := by
  induction j with
  | zero =>
    refine ⟨s.ret, ?_⟩
    have hone : (⟨0 + 1, by omega⟩ : Fin 8) = s.tic.inputBitsConsumed := hbits.symm
    rw [hone]
    rfl
  | succ j ih =>
    obtain ⟨r, hrun⟩ := ih (by omega)
    refine ⟨slotValue s.tic.inputByte j, ?_⟩
    rw [List.replicate_succ', List.range_succ, List.map_append]
    refine runAll_append_of_runs hrun (runAll_singleton_returning (exec_ticRdSer_slot a ?_ ?_ hj rfl) rfl)
    · exact hc
    · exact hb

/-- A frame in progress: the slots after the first one, the last slot, the edge that ends the connection, and the idle
line (R166). -/
theorem runAll_frame (a : Half) (m : Nat) {s : State} (hc : s.tic.ttyConnected = true)
    (hb : s.tic.inputByte.getLsbD 7 = false) (hbits : s.tic.inputBitsConsumed = 1) :
    runAll (List.replicate 6 (Instr.ticRdSer a) ++
        Instr.ticRdSer a :: Instr.ticRdSer a :: List.replicate (m + 1) (Instr.ticRdSer a)) s =
      some ((List.range 6).map (slotValue s.tic.inputByte) ++
          slotValue s.tic.inputByte 6 :: Returned.byte 0x00 :: List.replicate (m + 1) (Returned.byte 0x80),
        { s with
          tic := { s.tic with
            inputByte := s.tic.inputByte ||| 0x80, inputBitsConsumed := 0, ttyConnected := false },
          ret := .byte 0x80 }) := by
  have htop : (s.tic.inputByte ||| 0x80).getLsbD 7 = true := by
    rw [BitVec.getLsbD_or]
    exact Bool.or_true _
  obtain ⟨r, hslots⟩ := runAll_slots a le_rfl hc hb hbits
  refine runAll_append_of_runs hslots ?_
  rw [runAll_cons_of_next (exec_ticRdSer_last a ?connected ?top rfl), runAll_cons_of_next (exec_ticRdSer_edge a ?edge),
    runAll_idle a m ?idle ?idleTop]
  · simp only [hc]
    rfl
  case connected => exact hc
  case top => exact hb
  case edge => exact hc.trans htop.symm
  case idle => simp only [hc]; rfl
  case idleTop => exact htop

/-- Settles O26: the edge and the first slot, and then the frame in progress. -/
theorem inputFrameDeliversSevenBits : Obligations.InputFrameDeliversSevenBits := by
  intro a c m s hc hbits htop
  have hreads : List.replicate (11 + m) (Instr.ticRdSer a) = Instr.ticRdSer a :: Instr.ticRdSer a ::
      (List.replicate 6 (Instr.ticRdSer a) ++
        Instr.ticRdSer a :: Instr.ticRdSer a :: List.replicate (m + 1) (Instr.ticRdSer a)) := by
    rw [Nat.add_comm]
    rfl
  rw [hreads, runAll_cons_of_next (exec_ticSetSid c s), runAll_cons_of_next (exec_ticRdSer_edge a ?edge),
    runAll_cons_of_next (exec_ticRdSer_first a ?connected ?top ?first), runAll_frame a m ?connected' ?top' rfl]
  · simp only [hc, ← hbits, Nat.add_comm 1 m]
    rfl
  case edge => exact hc.trans htop.symm
  case connected | connected' => simp only [hc]; rfl
  case top | top' => exact htop
  case first => exact hbits

/-- Settles O27: the line is idle with the byte it is given. -/
theorem byteWithTopBitIsNeverShifted : Obligations.ByteWithTopBitIsNeverShifted := by
  intro a c m s hc htop
  rw [runAll_cons_of_next (exec_ticSetSid c s), runAll_idle a m ?idle ?top]
  · rfl
  case idle => exact hc
  case top => exact htop

/-! One enabled write -/

theorem serialShiftOut_getLsbD_of_lt (b v : Byte) {j : Nat} (hj : j < 6) :
    (serialShiftOut b v).getLsbD j = b.getLsbD (j + 1) := by
  interval_cases j <;> simp [serialShiftOut]

theorem serialShiftOut_getLsbD_six (b v : Byte) :
    (serialShiftOut b v).getLsbD 6 = (b.getLsbD 7 || !v.getLsbD 7) := by
  simp [serialShiftOut]

theorem serialShiftOut_getLsbD_seven (b v : Byte) : (serialShiftOut b v).getLsbD 7 = false := by
  simp [serialShiftOut]

/-- An enabled write before the eighth of a group (R162). -/
theorem exec_ticWrSerOn_of_lt (a : Half) (v : Byte) {s : State} {k : Nat} (hk : k < 7)
    (hbits : s.tic.outputBitsAssembled.val = k) :
    exec (.ticWrSerOn a v) s = .next { s with
      tic := { s.tic with
        outputByte := serialShiftOut s.tic.outputByte v, outputBitsAssembled := ⟨k + 1, by omega⟩ } } := by
  rw [exec_ticWrSerOn]
  rcases serialWrite_cases v s with ⟨-, e⟩ | ⟨h7, -⟩
  · have hnext : s.tic.outputBitsAssembled + 1 = ⟨k + 1, by omega⟩ :=
      Fin.ext ((Fin.val_add_one_of_lt' (by omega)).trans (congrArg (· + 1) hbits))
    rw [e, hnext]
  · rw [h7] at hbits
    exact absurd (hbits ▸ hk) (by decide)

/-- The eighth enabled write of a group (R162). -/
theorem exec_ticWrSerOn_last (a : Half) (v : Byte) {s : State} (hbits : s.tic.outputBitsAssembled = 7) :
    exec (.ticWrSerOn a v) s = .next { s with
      tic := { s.tic with
        outputByte := serialShiftOut s.tic.outputByte v, outputBitsAssembled := 0,
        transcript := s.tic.transcript ++ [serialShiftOut s.tic.outputByte v] },
      events := s.events ++ [.serialChar (serialShiftOut s.tic.outputByte v)] } := by
  rw [exec_ticWrSerOn]
  rcases serialWrite_cases v s with ⟨hne, -⟩ | ⟨-, e⟩
  · exact absurd hbits hne
  · rw [e]

/-- Settles O29: the bits of the shifted accumulator, and the two places of a write in its group. -/
theorem serialWriteShiftsOneInvertedBit : Obligations.SerialWriteShiftsOneInvertedBit :=
  fun a v s => ⟨serialShiftOut s.tic.outputByte v, fun _ hj => serialShiftOut_getLsbD_of_lt _ v hj,
    serialShiftOut_getLsbD_six _ v, serialShiftOut_getLsbD_seven _ v,
    fun k hbits => exec_ticWrSerOn_of_lt a v k.isLt hbits, exec_ticWrSerOn_last a v⟩

/-! Output frames -/

/-- Enabled writes that do not complete a group. -/
theorem runAll_serialWrites (a : Half) (vs : List Byte) {s : State} {k : Nat}
    (hbits : s.tic.outputBitsAssembled.val = k) (hlen : k + vs.length < 8) :
    runAll (vs.map (.ticWrSerOn a)) s = some ([], { s with
      tic := { s.tic with
        outputByte := vs.foldl serialShiftOut s.tic.outputByte, outputBitsAssembled := ⟨k + vs.length, hlen⟩ } }) := by
  induction vs generalizing s k with
  | nil =>
    subst hbits
    rfl
  | cons v vs ih =>
    have hlen' : k + 1 + vs.length < 8 := by rw [List.length_cons] at hlen; omega
    rw [List.map_cons, runAll_cons_of_next (exec_ticWrSerOn_of_lt a v (by omega) hbits), ih rfl hlen']
    simp [Instr.returnsValue, Nat.add_assoc, Nat.add_comm 1]

/-- Settles O30: seven writes of a group, and the eighth; a written bit is bit 6 of its own write's accumulator, and
moves down one place with each write after it. -/
theorem outputFrameAppendsOneCharacter : Obligations.OutputFrameAppendsOneCharacter := by
  intro a w s hbits
  have hwrites : (List.finRange 8).map (fun j => Instr.ticWrSerOn a (w j)) =
      [w 0, w 1, w 2, w 3, w 4, w 5, w 6].map (Instr.ticWrSerOn a) ++ [Instr.ticWrSerOn a (w 7)] := rfl
  refine ⟨serialShiftOut ([w 0, w 1, w 2, w 3, w 4, w 5, w 6].foldl serialShiftOut s.tic.outputByte) (w 7),
    fun j => ?_, serialShiftOut_getLsbD_seven _ _, ?_⟩
  · have hbit (b v₀ v : Byte) : (serialShiftOut (serialShiftOut b v₀) v).getLsbD 6 = !v.getLsbD 7 := by
      rw [serialShiftOut_getLsbD_six, serialShiftOut_getLsbD_seven, Bool.false_or]
    fin_cases j <;>
      simp only [List.foldl_cons, List.foldl_nil, serialShiftOut_getLsbD_of_lt, hbit, Nat.reduceLT, Nat.reduceAdd] <;>
      rfl
  · have hseven := runAll_serialWrites a [w 0, w 1, w 2, w 3, w 4, w 5, w 6] (k := 0)
      (congrArg Fin.val hbits) (Nat.lt_succ_self 7)
    rw [hwrites, runAll_append_of_runs hseven (runAll_singleton (exec_ticWrSerOn_last a (w 7) rfl) rfl), ← hbits]
    rfl

/-! The transcript -/

/-- Settles O31: the enabled write, the other transactions that write a latch, and the rest. -/
theorem transcriptIsAppendOnly : Obligations.TranscriptIsAppendOnly := by
  intro i s t h hne
  by_cases hser : ∃ a v, i = .ticWrSerOn a v
  · obtain ⟨a, v, rfl⟩ := hser
    obtain rfl := Host.Outcome.next.inj h
    rcases serialWrite_cases v s with ⟨-, e⟩ | ⟨-, e⟩ <;> rw [e] at hne ⊢
    · exact absurd rfl hne
    · exact .inl ⟨⟨a, v, rfl⟩, rfl, rfl⟩
  by_cases hi : i ∈ latchRows
  · cases i
    case ticReset | ticPowerOn =>
      obtain ⟨-, rfl⟩ := whenStopped_next h
      exact .inr ⟨by simp, rfl⟩
    case ticSetNmi | ticSetInt | ticReqReset | ticTakeNmi | ticTakeInt | ticTakeReset =>
      cases h
      exact absurd rfl hne
    all_goals exact absurd hi (by simp [latchRows])
  · exact absurd (exec_keepsLatchesAndTranscript hi (fun a v e => hser ⟨a, v, e⟩) h).transcript hne

end Sys2Proof.Machine
end

section
/-! What a host may see of the history (O59): two neighbouring events in the other order. -/

namespace Sys2Proof.Machine

/-- Neighbouring events of different sources stand in either order in what each source shows (R72). -/
theorem hostMaySee_swap (before after : List Event) {x y : Event} (h : x.source ≠ y.source) :
    hostMaySee (before ++ x :: y :: after) (before ++ y :: x :: after) := by
  intro u
  by_cases hx : x.source = u
  · have hy : y.source ≠ u := fun e => h (hx.trans e.symm)
    simp [List.filter_append, hx, hy]
  · simp [List.filter_append, List.filter_cons, hx]

/-- Neighbouring events of one source that a host sees in the other order are the same event. -/
theorem eq_of_hostMaySee_swap {before after : List Event} {x y : Event} (h : x.source = y.source)
    (hsee : hostMaySee (before ++ x :: y :: after) (before ++ y :: x :: after)) : x = y := by
  have hsource := hsee x.source
  simp only [List.filter_append, List.filter_cons, h, beq_self_eq_true, if_true] at hsource
  have htail := List.append_cancel_left hsource
  exact (List.cons.inj htail).1.symm

/-- Settles O59: the sources of the events, and the two orders of neighbours. -/
theorem hostSeesNoOrderAcrossControllers : Obligations.HostSeesNoOrderAcrossControllers := by
  refine ⟨fun _ _ _ _ _ => ⟨rfl, rfl, rfl, rfl⟩, fun before after field index g c => ⟨?_, ?_⟩,
    fun before after x y => ⟨hostMaySee_swap before after, fun h hne hsee => hne (eq_of_hostMaySee_swap h hsee)⟩⟩
  · exact hostMaySee_swap before after (x := .latchWrite field index g) (y := .serialChar c) Source.noConfusion
  · exact hostMaySee_swap before after (x := .serialChar c) (y := .latchWrite field index g) Source.noConfusion

end Sys2Proof.Machine
end
